-- ==== Sys2Proof/Word.lean ====
section
/-! DEFINITION. The words of the block: bytes, 16-bit and 32-bit unsigned values, 7-byte sequences and 9-byte packets
(spec 00 R8, R11, R12). Every value is unsigned. -/

namespace Sys2Proof

/-- An 8-bit unsigned value, 0 to 255 (00 R8, R11). -/
abbrev Byte := BitVec 8

/-- A 16-bit unsigned value: the `value` operand (00 R8, 10 R27). -/
abbrev Half := BitVec 16

/-- A 32-bit unsigned value: the concentration result (00 R8, 10 R28). -/
abbrev Word32 := BitVec 32

/-- Exactly 7 bytes, `s0` first: the checksum input `span` (40 R100, `SPAN_LEN` of 00 R8) and the payload, which is
packet bytes 1 to 7 (00 R16, `PAYLOAD_LEN`). No other length can be presented (92 D15). -/
structure Bytes7 where
  s0 : Byte
  s1 : Byte
  s2 : Byte
  s3 : Byte
  s4 : Byte
  s5 : Byte
  s6 : Byte
  deriving DecidableEq, Repr

/-- Exactly 9 bytes, indexed from 0 (`PACKET_LEN` of 00 R8; 30 R60, R77). -/
structure Packet where
  b0 : Byte
  b1 : Byte
  b2 : Byte
  b3 : Byte
  b4 : Byte
  b5 : Byte
  b6 : Byte
  b7 : Byte
  b8 : Byte
  deriving DecidableEq, Repr

end Sys2Proof
end

