-- ==== Sys2Proof/Config.lean ====
section
/-! DEFINITION. What an implementation fixes. The spec leaves one parameter open, `LEN_W` (00 R9, R10; 93 I7). -/

namespace Sys2Proof

/-- `LEN_W`: how many bits a realization gives the length of the inbound buffer (00 R9, 92 D4).
It has no body, so no proof can rest on a value of it.
The model itself takes the length as an unbounded natural number; only Safety.lean reads this constant. -/
opaque Config.lenW : Nat

end Sys2Proof
end

