-- ==== Sys2Proof/Syntax.lean ====
section
/-! DEFINITION. The eight operations (00 R3, 30 R71), each with the operands it takes and no other (10 R27, R30), and the
input ports on which the caller presents a transaction. -/

namespace Sys2Proof

/-- One constructor for each row of spec/opcode_table.json, carrying that operation's operands (00 R15). The operands
need no check: their types are the ranges the spec accepts (10 R31). -/
inductive Instr where
  /-- `checksum(span)`, op = 000 (40 R100). -/
  | checksum (span : Bytes7)
  /-- `read_gas_concentration(dev)`, op = 001 (41 R121). -/
  | readGasConcentration (dev : Byte)
  /-- `calibrate_zero_point(dev)`, op = 010 (41 R122). -/
  | calibrateZeroPoint (dev : Byte)
  /-- `calibrate_span_point(dev, value)`, op = 011 (41 R123). -/
  | calibrateSpanPoint (dev : Byte) (value : Half)
  /-- `set_automatic_baseline_correction(dev, enabled)`, op = 100 (41 R124). -/
  | setAutomaticBaselineCorrection (dev : Byte) (enabled : Bool)
  /-- `set_detection_range(dev, value)`, op = 101 (41 R125). -/
  | setDetectionRange (dev : Byte) (value : Half)
  /-- `parse_payload(buf)`, op = 110 (42 R150). -/
  | parsePayload (buf : List Byte)
  /-- `parse_gas_concentration_ppm(buf)`, op = 111 (42 R152). -/
  | parseGasConcentrationPpm (buf : List Byte)
  deriving DecidableEq, Repr

/-- The input ports of a transaction (10 R27). A port that nothing is presented on holds no value (10 section 3). -/
structure InPorts where
  /-- Operation select `op[2:0]` (30 R70). -/
  op      : Option (BitVec 3)
  /-- Device number. -/
  dev     : Option Byte
  /-- 16-bit parameter of `calibrate_span_point` and `set_detection_range`. -/
  value   : Option Half
  /-- Flag of `set_automatic_baseline_correction`. -/
  enabled : Option Bool
  /-- The 7-byte input of `checksum`. -/
  span    : Option Bytes7
  /-- The inbound buffer of the two decoder operations, of any length. -/
  buf     : Option (List Byte)
  deriving DecidableEq, Repr

/-- Nothing is presented on any input port. -/
def InPorts.noValue : InPorts :=
  { op := none, dev := none, value := none, enabled := none, span := none, buf := none }

end Sys2Proof
end

