-- ==== Sys2Proof/WellFormed.lean ====
section
/-! DEFINITION. When the input ports present a transaction: exactly one operation select, together with the operands that
operation takes (10 R27). A port the operation does not list is not looked at (10 R30). -/

namespace Sys2Proof

/-- The operand ports of 10 R27 (`op` itself apart). -/
inductive InPort where
  | dev | value | enabled | span | buf
  deriving DecidableEq, Repr

/-- Whether an operand port holds a value. -/
def InPorts.drives (t : InPorts) : InPort → Bool
  | .dev     => t.dev.isSome
  | .value   => t.value.isSome
  | .enabled => t.enabled.isSome
  | .span    => t.span.isSome
  | .buf     => t.buf.isSome

/-- The operand ports that the operation with a given select code reads, in the order of its signature
(the "operands" column of 30 R71; the "read by" column of 10 R27). -/
def operandPorts (op : BitVec 3) : List InPort :=
  match op.toFin with
  | 0 => [.span]
  | 1 => [.dev]
  | 2 => [.dev]
  | 3 => [.dev, .value]
  | 4 => [.dev, .enabled]
  | 5 => [.dev, .value]
  | 6 => [.buf]
  | 7 => [.buf]

/-- The ports present a transaction: `op` holds a value and so does every operand port its operation reads (10 R27). -/
def InPorts.wellFormed (t : InPorts) : Bool :=
  match t.op with
  | none    => false
  | some op => (operandPorts op).all t.drives

/-- `t` holds every value that `u` holds, on the same port. Ports on which `u` holds no value are free in `t`. -/
structure InPorts.Presents (t u : InPorts) : Prop where
  op      : ∀ v, u.op = some v → t.op = some v
  dev     : ∀ v, u.dev = some v → t.dev = some v
  value   : ∀ v, u.value = some v → t.value = some v
  enabled : ∀ v, u.enabled = some v → t.enabled = some v
  span    : ∀ v, u.span = some v → t.span = some v
  buf     : ∀ v, u.buf = some v → t.buf = some v

end Sys2Proof
end

