-- ==== Sys2Proof/Decode.lean ====
section
/-! DEFINITION. From the input ports to an operation with its operands (30 R70, R71), the encoder that presents an
operation on the ports, and the call notation of 30 R78. The operands travel on the ports, not inside `op` (30 R70). -/

namespace Sys2Proof

/-- Why the input ports present no transaction of this spec. -/
inductive Reject where
  /-- `op` holds no value: nothing is presented (10 R27 asks for exactly one operation select). -/
  | noOperation
  /-- The operation reads this port and it holds no value (10 R27). -/
  | operandMissing (port : InPort)
  /-- The select word is wider than `op[2:0]`: outside this spec (30 R76). Log entry 2. -/
  | opSelectTooWide (word : Nat)
  deriving DecidableEq, Repr

/-- The value of an operand port, or the rejection that names the port. -/
def presented {α : Type} (port : InPort) (v : Option α) : Except Reject α :=
  match v with
  | some a => .ok a
  | none   => .error (.operandMissing port)

/-- An operation of two operands, the first port read first. -/
def presented2 {α β : Type} (f : α → β → Instr) (a : Except Reject α) (b : Except Reject β) : Except Reject Instr :=
  match a, b with
  | .ok x, .ok y    => .ok (f x y)
  | .error e, _     => .error e
  | .ok _, .error e => .error e

/-- The op-select map of 30 R71, read from the ports: all eight codes are assigned (30 R76), and only the ports an
operation lists are looked at (10 R30). -/
def decode (t : InPorts) : Except Reject Instr :=
  match t.op with
  | none => .error .noOperation
  | some op =>
    match op.toFin with
    | 0 => (presented .span t.span).map .checksum
    | 1 => (presented .dev t.dev).map .readGasConcentration
    | 2 => (presented .dev t.dev).map .calibrateZeroPoint
    | 3 => presented2 .calibrateSpanPoint (presented .dev t.dev) (presented .value t.value)
    | 4 => presented2 .setAutomaticBaselineCorrection (presented .dev t.dev) (presented .enabled t.enabled)
    | 5 => presented2 .setDetectionRange (presented .dev t.dev) (presented .value t.value)
    | 6 => (presented .buf t.buf).map .parsePayload
    | 7 => (presented .buf t.buf).map .parseGasConcentrationPpm

/-- The 3-bit select of a select word: a word of more than 3 bits is rejected by name (30 R70, R76; log entry 2). -/
def opSelectOfWord (w : Nat) : Except Reject (BitVec 3) :=
  if w < 8 then .ok (BitVec.ofNat 3 w) else .error (.opSelectTooWide w)

/-- The operation select of each operation (30 R71, 92 D3; the "encoding" of spec/opcode_table.json). -/
def Instr.opSelect : Instr → BitVec 3
  | .checksum _                         => 0b000
  | .readGasConcentration _             => 0b001
  | .calibrateZeroPoint _               => 0b010
  | .calibrateSpanPoint _ _             => 0b011
  | .setAutomaticBaselineCorrection _ _ => 0b100
  | .setDetectionRange _ _              => 0b101
  | .parsePayload _                     => 0b110
  | .parseGasConcentrationPpm _         => 0b111

/-- The presentation of an operation: its select and its own operands, and no value on any other port (10 R27, R30). -/
def encode (i : Instr) : InPorts :=
  match i with
  | .checksum span => { InPorts.noValue with op := some i.opSelect, span := some span }
  | .readGasConcentration dev => { InPorts.noValue with op := some i.opSelect, dev := some dev }
  | .calibrateZeroPoint dev => { InPorts.noValue with op := some i.opSelect, dev := some dev }
  | .calibrateSpanPoint dev value =>
    { InPorts.noValue with op := some i.opSelect, dev := some dev, value := some value }
  | .setAutomaticBaselineCorrection dev enabled =>
    { InPorts.noValue with op := some i.opSelect, dev := some dev, enabled := some enabled }
  | .setDetectionRange dev value =>
    { InPorts.noValue with op := some i.opSelect, dev := some dev, value := some value }
  | .parsePayload buf => { InPorts.noValue with op := some i.opSelect, buf := some buf }
  | .parseGasConcentrationPpm buf => { InPorts.noValue with op := some i.opSelect, buf := some buf }

/-- The ports when a word of the opcode table is presented: bit 0 of the word is `op[0]`, and every operand port holds
zeros (`dev` 0, `value` 0, `enabled` false, `span` seven zero bytes, `buf` the buffer of no bytes). A word that is no
3-bit select presents no operation. Log entry 7. -/
def tableWordPorts (nbits w : Nat) : InPorts :=
  { op      := (opSelectOfWord (w % 2 ^ nbits)).toOption
    dev     := some 0
    value   := some 0
    enabled := some false
    span    := some ⟨0, 0, 0, 0, 0, 0, 0⟩
    buf     := some [] }

/-- The operation the decoder reads from a word of the opcode table. -/
def decodeTableWord (nbits w : Nat) : Option Instr :=
  (decode (tableWordPorts nbits w)).toOption

/-- The name an operation is written with (30 R78; the "mnemonic" of spec/opcode_table.json). -/
def Instr.mnemonic : Instr → String
  | .checksum _                         => "checksum"
  | .readGasConcentration _             => "read_gas_concentration"
  | .calibrateZeroPoint _               => "calibrate_zero_point"
  | .calibrateSpanPoint _ _             => "calibrate_span_point"
  | .setAutomaticBaselineCorrection _ _ => "set_automatic_baseline_correction"
  | .setDetectionRange _ _              => "set_detection_range"
  | .parsePayload _                     => "parse_payload"
  | .parseGasConcentrationPpm _         => "parse_gas_concentration_ppm"

/-- A hexadecimal digit, capital. -/
def hexDigit (n : Nat) : Char :=
  if n < 10 then Char.ofNat (48 + n) else Char.ofNat (55 + n)

/-- A byte written `0xNN` (00 R11, 30 R78). -/
def Byte.text (b : Byte) : String :=
  String.ofList ['0', 'x', hexDigit (b.toNat / 16), hexDigit (b.toNat % 16)]

/-- A byte list written `[0xFF,0x01,...]` (30 R78). -/
def byteListText (bs : List Byte) : String :=
  "[" ++ String.intercalate "," (bs.map Byte.text) ++ "]"

/-- The operands of an operation in the source's order, each as text: numbers without prefix, Booleans `true` and
`false`, byte lists in brackets (30 R78; log entry 11 for the choice of decimal). -/
def Instr.operandTexts : Instr → List String
  | .checksum s                         => [byteListText [s.s0, s.s1, s.s2, s.s3, s.s4, s.s5, s.s6]]
  | .readGasConcentration dev           => [toString dev.toNat]
  | .calibrateZeroPoint dev             => [toString dev.toNat]
  | .calibrateSpanPoint dev value       => [toString dev.toNat, toString value.toNat]
  | .setAutomaticBaselineCorrection dev enabled => [toString dev.toNat, if enabled then "true" else "false"]
  | .setDetectionRange dev value        => [toString dev.toNat, toString value.toNat]
  | .parsePayload buf                   => [byteListText buf]
  | .parseGasConcentrationPpm buf       => [byteListText buf]

/-- An operation in the call notation of 30 R78: its name, and its operands in parentheses. -/
def Instr.text (i : Instr) : String :=
  i.mnemonic ++ "(" ++ String.intercalate ", " i.operandTexts ++ ")"

end Sys2Proof
end

