-- ==== Sys2Proof/Machine/State.lean ====
section
/-! DEFINITION. The state: the block, which holds nothing (10 R20), and the ports of the transaction interface (10 R27,
R28), each of which may hold no value (10 R29). -/

namespace Sys2Proof.Machine

/-- The block's own state, which is "the empty record" (10 R20). It has no registers, program counter, flags, control
registers, memory, hidden state or modes (10 R21 to R26, 20 R40, 60 R212). -/
structure Block where
  deriving DecidableEq, Repr

/-- The `status` output of a decoder operation (10 R28). It is an output, not a flag (10 R23). -/
inductive Status where
  | ok
  | err
  deriving DecidableEq, Repr

/-- The closed error taxonomy, each kind with the offending values (60 R200, 00 R15). An error is a result value, not a
trap (60 R206). -/
inductive DecodeError where
  /-- `len(buf) ≠ 9`; carries the length (60 R201). -/
  | wrongPacketLength (found : Nat)
  /-- Byte 0 is not 0xFF; carries byte 0 (60 R202). -/
  | wrongStartByte (found : Byte)
  /-- Byte 8 is not the checksum of bytes 1 to 7; carries the computed checksum, then byte 8 (60 R203, 90 C5). -/
  | wrongChecksum (expected found : Byte)
  /-- Payload byte 0 is not 0x86; carries 0x86, then payload byte 0 (60 R204). -/
  | wrongPacketType (expected found : Byte)
  deriving DecidableEq, Repr

/-- The result of a transaction: one case for each kind of output an operation can produce (00 R14, R15, 10 R29). -/
inductive Result where
  /-- The packet of an encoder operation. -/
  | packet (pkt : Packet)
  /-- The byte of `checksum`. -/
  | checksum (csum : Byte)
  /-- `Ok` of `parse_payload`. -/
  | payload (p : Bytes7)
  /-- `Ok` of `parse_gas_concentration_ppm`. -/
  | ppm (v : Word32)
  /-- `Err` of a decoder operation. -/
  | error (e : DecodeError)
  deriving DecidableEq, Repr

/-- The output ports (10 R28). A port the presented operation does not produce holds no value (10 R29). -/
structure OutPorts where
  pkt     : Option Packet
  csum    : Option Byte
  status  : Option Status
  payload : Option Bytes7
  ppm     : Option Word32
  err     : Option DecodeError
  deriving DecidableEq, Repr

/-- No output port holds a value (10 R29, 70 R250). -/
def OutPorts.noValue : OutPorts :=
  { pkt := none, csum := none, status := none, payload := none, ppm := none, err := none }

/-- The names of what a caller can read: the output ports of 10 R28, with the numeric view of `err` (60 R205). -/
inductive OutPort where
  | pkt | csum | status | payload | ppm | err | errKind | errF1 | errF2
  deriving DecidableEq, Repr

/-- A field on the `err` port (60 R205): a length is a natural number, every other field is 8 bits. -/
inductive ErrField where
  | length (n : Nat)
  | byte (b : Byte)
  deriving DecidableEq, Repr

/-- The whole state: plain data. The block holds nothing (10 R20); the ports are those of 10 R27 and R28 (log entry 1). -/
structure State where
  /-- The block's own state: the empty record (10 R20). -/
  block : Block
  /-- What the caller presents (10 R27). -/
  inp   : InPorts
  /-- What the last transaction produced (10 R28; log entry 5). -/
  out   : OutPorts
  deriving DecidableEq, Repr

/-- What stops a reader of the outputs. -/
inductive Fault where
  /-- A port, or a field of `err`, was read that the operation did not produce (10 R29, 60 R208, 93 I10). Raised by the
  read operations of Machine/Caller.lean, never by `exec` or `step`. Safe: a claim becomes unprovable, none false. -/
  | unproducedOutput (port : OutPort)
  deriving DecidableEq, Repr

/-- Why a step has no meaning. -/
inductive Refusal where
  /-- Raised by an arm of `exec` for an operation not modelled yet; no arm does so now. Safe. -/
  | notModelled (mnemonic : String)
  /-- Raised by `step` when the input ports present no transaction in the sense of 10 R27 (log entry 4). Safe: the spec
  gives no effect to it. -/
  | noTransaction (why : Reject)
  deriving DecidableEq, Repr

/-- Reset sets nothing: there is no register, flag or control field to give a value (70 R250), nothing is presented
(log entry 3) and every output port holds no value until a transaction produces it (70 R250, 10 R29). -/
def State.reset : State :=
  { block := {}, inp := InPorts.noValue, out := OutPorts.noValue }

end Sys2Proof.Machine
end

