-- ==== Sys2Proof/Machine/Commands.lean ====
section
/-! DEFINITION. The constants of the block (00 R8, 10 R24): the start byte and the command-code table
(30 R64). The lengths 9 and 7 are the shapes of Packet and Bytes7. The constants hold from the first transaction on and never change (70 R251). -/

namespace Sys2Proof.Machine

/-- `START`, byte 0 of every valid packet (00 R8, 30 R63). -/
def startByte : Byte := 0xFF

/-- The closed set of commands (30 R64). -/
inductive Command where
  | readGasConcentration
  | calibrateZero
  | calibrateSpan
  | setAutomaticBaselineCorrection
  | setSensorDetectionRange
  deriving DecidableEq, Repr

/-- The command-code table (30 R64): total, immutable. -/
def Command.code : Command → Byte
  | .readGasConcentration           => 0x86
  | .calibrateZero                  => 0x87
  | .calibrateSpan                  => 0x88
  | .setAutomaticBaselineCorrection => 0x79
  | .setSensorDetectionRange        => 0x99

/-- The five commands, in the order of 30 R64. -/
def Command.all : List Command :=
  [.readGasConcentration, .calibrateZero, .calibrateSpan, .setAutomaticBaselineCorrection, .setSensorDetectionRange]

/-- The partial inverse of the table (30 R65): the command whose code the byte is, if there is one. -/
def Command.ofCode (b : Byte) : Option Command :=
  Command.all.find? (fun c => c.code == b)

/-- `GAS_CODE`, the echoed command byte a concentration response must carry (00 R8). -/
def gasCode : Byte := Command.readGasConcentration.code

end Sys2Proof.Machine
end

