-- ==== Sys2Proof/Machine/Operands.lean ====
section
/-! DEFINITION. Operand assembly and the layout of packets: byte sequences by index, the big-endian split, the baseline
flag, the concentration (30 R66 to R69) and the 72-bit string of a packet (30 R60). -/

namespace Sys2Proof

/-- The seven bytes in index order. -/
def Bytes7.bytes (s : Bytes7) : List Byte :=
  [s.s0, s.s1, s.s2, s.s3, s.s4, s.s5, s.s6]

/-- The nine bytes in index order, which is the order of transmission: byte 0 first, byte 8 last (20 R43). -/
def Packet.bytes (p : Packet) : List Byte :=
  [p.b0, p.b1, p.b2, p.b3, p.b4, p.b5, p.b6, p.b7, p.b8]

/-- Packet bytes 1 to 7: the payload, which is also the span the packet's checksum is taken over (00 R16, 20 R52). -/
def Packet.payload (p : Packet) : Bytes7 :=
  ⟨p.b1, p.b2, p.b3, p.b4, p.b5, p.b6, p.b7⟩

/-- A buffer as a packet: exists exactly when the buffer has `PACKET_LEN` bytes. No index is read before the length is
known (20 R49). -/
def Packet.ofBytes (buf : List Byte) : Option Packet :=
  match buf with
  | [b0, b1, b2, b3, b4, b5, b6, b7, b8] => some ⟨b0, b1, b2, b3, b4, b5, b6, b7, b8⟩
  | _ => none

/-- The packet as the 72-bit string `P[71:0]`, byte 0 leftmost (30 R60). -/
def Packet.bits (p : Packet) : BitVec 72 :=
  p.b0 ++ p.b1 ++ p.b2 ++ p.b3 ++ p.b4 ++ p.b5 ++ p.b6 ++ p.b7 ++ p.b8

namespace Machine

/-- `(value >> 8) & 0xFF`, the shift before the mask: byte 3 of a 16-bit parameter (30 R66, 20 R44). -/
def valueHigh (value : Half) : Byte :=
  ((value >>> 8) &&& 0x00FF).setWidth 8

/-- `value & 0xFF`: byte 4 of a 16-bit parameter (30 R66). -/
def valueLow (value : Half) : Byte :=
  (value &&& 0x00FF).setWidth 8

/-- Byte 3 of `set_automatic_baseline_correction`: 0xA0 or 0x00 (30 R67). -/
def baselineFlag (enabled : Bool) : Byte :=
  if enabled then 0xA0 else 0x00

/-- `zext_32(256 * payload[1] + payload[2])`, computed exactly in natural numbers (30 R68, 20 R45). -/
def concentration (p : Bytes7) : Word32 :=
  BitVec.ofNat 32 (256 * p.s1.toNat + p.s2.toNat)

end Machine
end Sys2Proof
end

