-- ==== Sys2Proof/Machine/Flags.lean ====
section
/-! DEFINITION. The block has no flags (10 R23). What stands in their place: which output ports a result drives, the
`status` among them (10 R28, R29), and the numeric view of an error on the `err` port (60 R205). -/

namespace Sys2Proof.Machine

/-- The output ports a result drives: exactly those of 10 R28, every other port without a value (10 R29). Encoder and
checksum operations produce no status (10 R23). -/
def Result.ports : Result → OutPorts
  | .packet p   => { OutPorts.noValue with pkt := some p }
  | .checksum c => { OutPorts.noValue with csum := some c }
  | .payload p  => { OutPorts.noValue with status := some .ok, payload := some p }
  | .ppm v      => { OutPorts.noValue with status := some .ok, ppm := some v }
  | .error e    => { OutPorts.noValue with status := some .err, err := some e }

/-- `err_kind[1:0]` (60 R205). -/
def DecodeError.kind : DecodeError → BitVec 2
  | .wrongPacketLength _ => 0b00
  | .wrongStartByte _    => 0b01
  | .wrongChecksum _ _   => 0b10
  | .wrongPacketType _ _ => 0b11

/-- `err_f1` (60 R205). -/
def DecodeError.f1 : DecodeError → ErrField
  | .wrongPacketLength found    => .length found
  | .wrongStartByte found       => .byte found
  | .wrongChecksum expected _   => .byte expected
  | .wrongPacketType expected _ => .byte expected

/-- `err_f2`; `none` is the table's "no value" (60 R205). -/
def DecodeError.f2 : DecodeError → Option Byte
  | .wrongPacketLength _     => none
  | .wrongStartByte _        => none
  | .wrongChecksum _ found   => some found
  | .wrongPacketType _ found => some found

end Sys2Proof.Machine
end

