-- ==== Sys2Proof/Machine/Ops.lean ====
section
/-! DEFINITION. The shared operations: presenting ports, ending a transaction with a result, ending it with an error (which stands where
another machine takes an exception: 60 R206), and answering with whichever of the two a decoder found. There is no
return from an error: nothing was saved and nothing is restored (60 R209). -/

namespace Sys2Proof.Machine

/-- Put a presentation on the input ports. The outputs of the transaction before are gone with it: a port holds a value
only when the operation now presented has produced it, and never the previous transaction's value (10 R29; log entry 5). -/
def State.presentPorts (s : State) (t : InPorts) : State :=
  { s with inp := t, out := OutPorts.noValue }

/-- End the transaction with a result: the output ports hold exactly what it produces, nothing stays from an earlier
transaction (10 R28, R29). The block holds no state to change (10 R20) and the inputs are only read (20 R40, R51; log
entry 6). -/
def State.deliver (s : State) (r : Result) : State :=
  { s with out := r.ports }

/-- `raise E` (00 R13): the transaction ends with `status = Err` and the error. No state is saved, no mode changes, and
no address receives control (60 R206). -/
def State.raise (s : State) (e : DecodeError) : State :=
  s.deliver (.error e)

/-- End a transaction that cannot fail (00 R14). -/
def complete (r : Result) (s : State) : Host.Outcome State Fault Refusal :=
  .next (s.deliver r)

/-- End a decoder transaction: `Ok` with its value, or the one error that was raised (00 R14, 60 R206). Both are next
states: errors are non-fatal (60 R209). -/
def answer {α : Type} (ok : α → Result) (r : Except DecodeError α) (s : State) : Host.Outcome State Fault Refusal :=
  match r with
  | .ok v    => .next (s.deliver (ok v))
  | .error e => .next (s.raise e)

end Sys2Proof.Machine
end

