-- ==== Sys2Proof/Machine/ChecksumUnit.lean ====
section
/-! DEFINITION. checksum_unit (spec 40). -/

namespace Sys2Proof.Machine

/-- `wrapping_sum`: the bytes added modulo 256, from 0x00, in index order (40 R100). -/
def wrappingSum (s : Bytes7) : Byte :=
  s.bytes.foldl (fun sum b => sum + b) 0x00

/-- `0x01 +8 (0xFF -8 sum)` (40 R100). The formula governs, not the name "one's-complement" (40 R101, 90 C6). -/
def checksum (s : Bytes7) : Byte :=
  0x01 + (0xFF - wrappingSum s)

/-- `checksum(span)` (40 R100). -/
def execChecksum (span : Bytes7) (s : State) : Host.Outcome State Fault Refusal :=
  complete (.checksum (checksum span)) s

end Sys2Proof.Machine
end

