-- ==== Sys2Proof/Machine/PacketDecoder.lean ====
section
/-! DEFINITION. packet_decoder (spec 42): two operations (42 R154), which test only what 42 R150 and R152 list (42 R155),
in the order of 60 R207. -/

namespace Sys2Proof.Machine

/-- `parse_payload(buf)` (42 R150): the length, then the start byte, then the checksum; the first failing test is the one
reported (60 R207), and otherwise the payload is bytes 1 to 7 unchanged (20 R52). -/
def parsePayload (buf : List Byte) : Except DecodeError Bytes7 :=
  match Packet.ofBytes buf with
  | none => .error (.wrongPacketLength buf.length)
  | some p =>
    if p.b0 ≠ startByte then .error (.wrongStartByte p.b0)
    else if checksum p.payload ≠ p.b8 then .error (.wrongChecksum (checksum p.payload) p.b8)
    else .ok p.payload

/-- `parse_gas_concentration_ppm(buf)` (42 R152): errors of `parse_payload` are propagated unchanged (42 R153), then the
echoed command is tested, and otherwise the concentration is returned. -/
def parseGasConcentrationPpm (buf : List Byte) : Except DecodeError Word32 :=
  match parsePayload buf with
  | .error e => .error e
  | .ok p =>
    if p.s0 ≠ gasCode then .error (.wrongPacketType gasCode p.s0)
    else .ok (concentration p)

/-- `parse_payload(buf)` as a transaction (42 R150). -/
def execParsePayload (buf : List Byte) (s : State) : Host.Outcome State Fault Refusal :=
  answer .payload (parsePayload buf) s

/-- `parse_gas_concentration_ppm(buf)` as a transaction (42 R152). -/
def execParseGasConcentrationPpm (buf : List Byte) (s : State) : Host.Outcome State Fault Refusal :=
  answer .ppm (parseGasConcentrationPpm buf) s

end Sys2Proof.Machine
end

