-- ==== Sys2Proof/Machine/PacketEncoder.lean ====
section
/-! DEFINITION. packet_encoder (spec 41): five operations over one shared builder. None of them can fail, and none checks
its operands (41 R126). -/

namespace Sys2Proof.Machine

/-- `BUILD(code, dev, b3, b4)` (41 R120): bytes 5, 6 and 7 are 0x00 and byte 8 is the checksum of bytes 1 to 7. -/
def build (code dev b3 b4 : Byte) : Packet :=
  { b0 := startByte, b1 := dev, b2 := code, b3 := b3, b4 := b4, b5 := 0x00, b6 := 0x00, b7 := 0x00,
    b8 := checksum ⟨dev, code, b3, b4, 0x00, 0x00, 0x00⟩ }

/-- `read_gas_concentration(dev)` (41 R121). -/
def execReadGasConcentration (dev : Byte) (s : State) : Host.Outcome State Fault Refusal :=
  complete (.packet (build Command.readGasConcentration.code dev 0x00 0x00)) s

/-- `calibrate_zero_point(dev)` (41 R122). -/
def execCalibrateZeroPoint (dev : Byte) (s : State) : Host.Outcome State Fault Refusal :=
  complete (.packet (build Command.calibrateZero.code dev 0x00 0x00)) s

/-- `calibrate_span_point(dev, value)` (41 R123). -/
def execCalibrateSpanPoint (dev : Byte) (value : Half) (s : State) : Host.Outcome State Fault Refusal :=
  complete (.packet (build Command.calibrateSpan.code dev (valueHigh value) (valueLow value))) s

/-- `set_automatic_baseline_correction(dev, enabled)` (41 R124). -/
def execSetAutomaticBaselineCorrection (dev : Byte) (enabled : Bool) (s : State) : Host.Outcome State Fault Refusal :=
  complete (.packet (build Command.setAutomaticBaselineCorrection.code dev (baselineFlag enabled) 0x00)) s

/-- `set_detection_range(dev, value)` (41 R125). -/
def execSetDetectionRange (dev : Byte) (value : Half) (s : State) : Host.Outcome State Fault Refusal :=
  complete (.packet (build Command.setSensorDetectionRange.code dev (valueHigh value) (valueLow value))) s

end Sys2Proof.Machine
end

