-- ==== Sys2Proof/Machine/Dispatch.lean ====
section
/-! DEFINITION. One arm for each operation of spec/opcode_table.json (30 R71). -/

namespace Sys2Proof.Machine

def exec (i : Instr) (s : State) : Host.Outcome State Fault Refusal :=
  match i with
  | .checksum span => Sys2Proof.Machine.execChecksum span s
  | .readGasConcentration dev => Sys2Proof.Machine.execReadGasConcentration dev s
  | .calibrateZeroPoint dev => Sys2Proof.Machine.execCalibrateZeroPoint dev s
  | .calibrateSpanPoint dev value => Sys2Proof.Machine.execCalibrateSpanPoint dev value s
  | .setAutomaticBaselineCorrection dev enabled => Sys2Proof.Machine.execSetAutomaticBaselineCorrection dev enabled s
  | .setDetectionRange dev value => Sys2Proof.Machine.execSetDetectionRange dev value s
  | .parsePayload buf => Sys2Proof.Machine.execParsePayload buf s
  | .parseGasConcentrationPpm buf => Sys2Proof.Machine.execParseGasConcentrationPpm buf s

end Sys2Proof.Machine
end

