-- ==== Sys2Proof/Machine/Step.lean ====
section
/-! DEFINITION. One step is one whole transaction (20 R50, 92 D1): the operation presented on the input ports (20 R55),
performed. Nothing is fetched and there is no program counter (10 R22). -/

namespace Sys2Proof.Machine

/-- Perform the transaction that the input ports present. Ports that present none are refused by name (log entry 4). -/
def step (s : State) : Host.Outcome State Fault Refusal :=
  match decode s.inp with
  | .error why => .refused (.noTransaction why)
  | .ok i      => exec i s

/-- `s` with a word of the opcode table presented as the next transaction, every operand port at zeros (log entry 7) and,
as at every presentation, no output of an earlier transaction left to read (10 R29; log entry 5). -/
def State.withFetchWord (s : State) (nbits w : Nat) : State :=
  s.presentPorts (tableWordPorts nbits w)

end Sys2Proof.Machine
end

