-- ==== Sys2Proof/Machine/Caller.lean ====
section
/-! DEFINITION. The caller's side of the interface: the only moves a host has on the block (70 R256). It presents
transactions, in an order that is its own (10 R22), and reads outputs. Reading an output that was not produced faults; it
gives neither zero nor an earlier value (10 R29, 93 I10). -/

namespace Sys2Proof.Machine

/-- Present an operation with its operands, and nothing else, on the input ports (10 R27), with no output of an earlier
transaction left to read (10 R29; log entry 5). -/
def State.present (s : State) (i : Instr) : State :=
  s.presentPorts (encode i)

/-- Present one transaction and let it run. -/
def transact (i : Instr) (s : State) : Host.Outcome State Fault Refusal :=
  step (s.present i)

/-- Present transactions one after another (95 part 3); the first that stops stops them all. -/
def transactAll : List Instr → State → Host.Outcome State Fault Refusal
  | [], s => .next s
  | i :: is, s =>
    match transact i s with
    | .next s'   => transactAll is s'
    | .fault r   => .fault r
    | .refused r => .refused r

/-- The value of an output port, or the fault that names the port (10 R29). -/
def readPort {α : Type} (port : OutPort) (v : Option α) : Except Fault α :=
  match v with
  | some a => .ok a
  | none   => .error (.unproducedOutput port)

/-- Read `pkt`. -/
def State.readPkt (s : State) : Except Fault Packet := readPort .pkt s.out.pkt

/-- Read `csum`. -/
def State.readCsum (s : State) : Except Fault Byte := readPort .csum s.out.csum

/-- Read `status`. -/
def State.readStatus (s : State) : Except Fault Status := readPort .status s.out.status

/-- Read `payload`. -/
def State.readPayload (s : State) : Except Fault Bytes7 := readPort .payload s.out.payload

/-- Read `ppm`. -/
def State.readPpm (s : State) : Except Fault Word32 := readPort .ppm s.out.ppm

/-- Read `err`. -/
def State.readErr (s : State) : Except Fault DecodeError := readPort .err s.out.err

/-- Read `err_kind[1:0]` (60 R205). -/
def State.readErrKind (s : State) : Except Fault (BitVec 2) := readPort .errKind (s.out.err.map DecodeError.kind)

/-- Read `err_f1` (60 R205). -/
def State.readErrF1 (s : State) : Except Fault ErrField := readPort .errF1 (s.out.err.map DecodeError.f1)

/-- Read `err_f2`; the kinds of one field give it no value (60 R205). -/
def State.readErrF2 (s : State) : Except Fault Byte := readPort .errF2 (s.out.err.bind DecodeError.f2)

/-- The caller's slice `tN[a..b]`: indices a to b-1 (30 R78). DESIGN CHOICE (log entry 13): the spec is silent on a slice
past the end of the bytes, or with b below a; the model gives such a slice no value. -/
def slice (bs : List Byte) (a b : Nat) : Option (List Byte) :=
  if a ≤ b ∧ b ≤ bs.length then some ((bs.take b).drop a) else none

end Sys2Proof.Machine
end

