-- ==== Sys2Proof/Safety.lean ====
section
/-! DEFINITION. What a safe run is, in the terms the statements use: the outputs are always those of one result, with
values in the ranges the spec gives, and a realization's length field holds every length reported. -/

namespace Sys2Proof.Machine

/-- The framing of every valid packet: byte 0 is 0xFF and byte 8 the checksum of bytes 1 to 7 (30 R63, 41 R127). -/
def WellFramed (p : Packet) : Prop :=
  p.b0 = 0xFF ∧ p.b8 = checksum p.payload

/-- The ranges of the error fields (42 R158). -/
def DecodeError.InRange : DecodeError → Prop
  | .wrongPacketLength n => n ≠ 9
  | .wrongStartByte b    => b ≠ 0xFF
  | .wrongChecksum c f   => c ≠ f
  | .wrongPacketType e f => e = 0x86 ∧ f ≠ 0x86

/-- The outputs of an encoder transaction (10 R28): `pkt` and nothing else. -/
def OutPorts.onlyPkt (p : Packet) : OutPorts := ⟨some p, none, none, none, none, none⟩

/-- The outputs of a checksum transaction (10 R28): `csum` and nothing else. -/
def OutPorts.onlyCsum (c : Byte) : OutPorts := ⟨none, some c, none, none, none, none⟩

/-- The outputs of a successful `parse_payload` (10 R28): `status = Ok` and `payload`, nothing else. -/
def OutPorts.okPayload (p : Bytes7) : OutPorts := ⟨none, none, some .ok, some p, none, none⟩

/-- The outputs of a successful `parse_gas_concentration_ppm` (10 R28): `status = Ok` and `ppm`, nothing else. -/
def OutPorts.okPpm (v : Word32) : OutPorts := ⟨none, none, some .ok, none, some v, none⟩

/-- The outputs of a decoder transaction that raised an error (10 R28, 60 R206): `status = Err` and `err`, nothing
else. -/
def OutPorts.onlyErr (e : DecodeError) : OutPorts := ⟨none, none, some .err, none, none, some e⟩

/-- Output ports that some transaction can have produced, or none yet (10 R28, R29): no two results at once, a `status`
with exactly the output it announces, and every value in its range (41 R127, 42 R158). -/
inductive OutPorts.Legal : OutPorts → Prop where
  | noValue : OutPorts.Legal OutPorts.noValue
  | pkt (p : Packet) (h : WellFramed p) : OutPorts.Legal (OutPorts.onlyPkt p)
  | csum (c : Byte) : OutPorts.Legal (OutPorts.onlyCsum c)
  | payload (p : Bytes7) : OutPorts.Legal (OutPorts.okPayload p)
  | ppm (v : Word32) (h : v.toNat ≤ 65535) : OutPorts.Legal (OutPorts.okPpm v)
  | err (e : DecodeError) (h : e.InRange) : OutPorts.Legal (OutPorts.onlyErr e)

/-- The invariant of the machine. -/
def State.Inv (s : State) : Prop := s.out.Legal

/-- A buffer that a realization with a finite `LEN_W` covers (00 R9, 92 D4). -/
def CoveredLength (buf : List Byte) : Prop := buf.length < 2 ^ Config.lenW

/-- The length field of a realization: `err_f1` on `LEN_W` bits (60 R205). -/
def lengthField (n : Nat) : BitVec Config.lenW := BitVec.ofNat Config.lenW n

/-- What a request packet carries in bytes 1 to 4 (30 R61). -/
structure RequestFields where
  dev  : Byte
  code : Byte
  b3   : Byte
  b4   : Byte
  deriving DecidableEq, Repr

/-- The four bytes each encoder operation asks for, from the tables of 30 R64, R66 and R67; the other operations build no
packet. -/
def requestFields : Instr → Option RequestFields
  | .checksum _                         => none
  | .readGasConcentration dev           => some ⟨dev, 0x86, 0x00, 0x00⟩
  | .calibrateZeroPoint dev             => some ⟨dev, 0x87, 0x00, 0x00⟩
  | .calibrateSpanPoint dev value       => some ⟨dev, 0x88, value.extractLsb' 8 8, value.extractLsb' 0 8⟩
  | .setAutomaticBaselineCorrection dev enabled => some ⟨dev, 0x79, if enabled then 0xA0 else 0x00, 0x00⟩
  | .setDetectionRange dev value        => some ⟨dev, 0x99, value.extractLsb' 8 8, value.extractLsb' 0 8⟩
  | .parsePayload _                     => none
  | .parseGasConcentrationPpm _         => none

/-- No field of the numeric view of `err` can be read (60 R205; log entry 12). -/
def NoErrorField (s : State) : Prop :=
  s.readErrKind = .error (.unproducedOutput .errKind) ∧ s.readErrF1 = .error (.unproducedOutput .errF1) ∧
  s.readErrF2 = .error (.unproducedOutput .errF2)

/-- The exact natural-number sum of bytes (40 R101). -/
def byteSum (bs : List Byte) : Nat := (bs.map BitVec.toNat).sum

end Sys2Proof.Machine
end

