-- ==== Sys2Proof/Certificates/Slice0/Obligations.lean ====
section
/-! DEFINITION. The statements for the provers. Each docstring names the rules of spec/ it formalises; log entries are
notes/assumptions/<n>.md. -/

open Sys2Proof Sys2Proof.Machine

/-! ### Encoding and presentation -/

/-- The decoder reads an operation from the ports exactly when they hold that operation's select and its own operands,
whatever the other ports hold (10 R27, R30; 30 R70, R71). With `t` the encoder's own ports this is the round trip. -/
def Obligations.DecoderReadsExactlyTheListedPorts : Prop :=
  ∀ (t : InPorts) (i : Instr), decode t = .ok i ↔ t.Presents (encode i)

/-- The op-select map, code by code, with the operands each operation takes (30 R70, R71), and no code left over: all eight
values name an operation (30 R76). -/
def Obligations.OpSelectMapAssignsAllEightCodes : Prop :=
  (∀ t span, t.op = some 0b000 → t.span = some span → decode t = .ok (.checksum span)) ∧
  (∀ t dev, t.op = some 0b001 → t.dev = some dev → decode t = .ok (.readGasConcentration dev)) ∧
  (∀ t dev, t.op = some 0b010 → t.dev = some dev → decode t = .ok (.calibrateZeroPoint dev)) ∧
  (∀ t dev value, t.op = some 0b011 → t.dev = some dev → t.value = some value →
    decode t = .ok (.calibrateSpanPoint dev value)) ∧
  (∀ t dev enabled, t.op = some 0b100 → t.dev = some dev → t.enabled = some enabled →
    decode t = .ok (.setAutomaticBaselineCorrection dev enabled)) ∧
  (∀ t dev value, t.op = some 0b101 → t.dev = some dev → t.value = some value →
    decode t = .ok (.setDetectionRange dev value)) ∧
  (∀ t buf, t.op = some 0b110 → t.buf = some buf → decode t = .ok (.parsePayload buf)) ∧
  (∀ t buf, t.op = some 0b111 → t.buf = some buf → decode t = .ok (.parseGasConcentrationPpm buf)) ∧
  (∀ (op : BitVec 3) dev value enabled span buf,
    ∃ i, decode ⟨some op, some dev, some value, some enabled, some span, some buf⟩ = .ok i ∧ i.opSelect = op)

/-- The decoder accepts the ports exactly when they present a transaction; otherwise it names the first thing that is
missing and nothing else: `op`, or else the first operand port, in the order of the operation's signature, that holds no
value (10 R27; that it is rejected, and that the first is named, is the model's choice, log entry 4). -/
def Obligations.DecoderRejectsExactlyIncompletePresentations : Prop :=
  (∀ t, (∃ i, decode t = .ok i) ↔ t.wellFormed = true) ∧
  (∀ t, decode t = .error .noOperation ↔ t.op = none) ∧
  (∀ t why, decode t = .error why ↔
    (t.op = none ∧ why = .noOperation) ∨
    ∃ op port, t.op = some op ∧ (operandPorts op).find? (fun p => !t.drives p) = some port ∧
      why = .operandMissing port)

/-- The words of the opcode table, written out from 30 R71, decode to their operations with zero operands, and a select
wider than three bits to none (30 R76; log entries 2 and 7). -/
def Obligations.TableWordsDecodeToTheirOperations : Prop :=
  decodeTableWord 8 0b000 = some (.checksum ⟨0, 0, 0, 0, 0, 0, 0⟩) ∧
  decodeTableWord 8 0b001 = some (.readGasConcentration 0) ∧
  decodeTableWord 8 0b010 = some (.calibrateZeroPoint 0) ∧
  decodeTableWord 8 0b011 = some (.calibrateSpanPoint 0 0) ∧
  decodeTableWord 8 0b100 = some (.setAutomaticBaselineCorrection 0 false) ∧
  decodeTableWord 8 0b101 = some (.setDetectionRange 0 0) ∧
  decodeTableWord 8 0b110 = some (.parsePayload []) ∧
  decodeTableWord 8 0b111 = some (.parseGasConcentrationPpm []) ∧
  decodeTableWord 8 0b1000 = none

/-- A step performs the operation that the ports decode to, and adds nothing around it; where they decode to none it
refuses by name (20 R55, 10 R22; the refusal is the model's choice, log entry 4). -/
def Obligations.StepRunsTheDecodedOperation : Prop :=
  (∀ s i, decode s.inp = .ok i → step s = exec i s) ∧
  (∀ s why, decode s.inp = .error why → step s = .refused (.noTransaction why))

/-- A step has a next state exactly when the ports present a transaction, and never faults (60 R208; the refusal of an
incomplete presentation is the model's choice, log entry 4). -/
def Obligations.StepStopsOnlyWithoutATransaction : Prop :=
  (∀ s, (∃ t, step s = .next t) ↔ s.inp.wellFormed = true) ∧ (∀ s f, step s ≠ .fault f)

/-- 10 R30: an input port the operation does not list has no effect on the result. Two presentations of one operation that
differ on every other port, from states that differ in everything else, give the same outputs. -/
def Obligations.UnlistedInputPortsHaveNoEffect : Prop :=
  ∀ (i : Instr) (s u : State), s.inp.Presents (encode i) → u.inp.Presents (encode i) →
    ∃ t v, step s = .next t ∧ step u = .next v ∧ t.out = v.out

/-- 30 R60: byte i of a packet occupies P[71-8i : 64-8i], with its bit 7 at P[71-8i]. -/
def Obligations.PacketBytesStandAtTheirBits : Prop :=
  ∀ (p : Packet) (i : Fin 9), p.bits.extractLsb' (64 - 8 * i) 8 = p.bytes.get i ∧
    p.bits.getLsbD (71 - 8 * i) = (p.bytes.get i).getLsbD 7

/-! ### The state and the interface -/

/-- 10 R28, for every operation: it completes on all operands in every state, and the outputs afterwards are exactly those
listed for it. The rest of the state is unchanged (20 R40, R51). -/
def Obligations.OutputsAreExactlyThoseListed : Prop :=
  ∀ (i : Instr) (s : State), ∃ t, exec i s = .next t ∧ t.block = s.block ∧ t.inp = s.inp ∧
    match i with
    | .checksum _ => ∃ c, t.out = OutPorts.onlyCsum c
    | .readGasConcentration _ => ∃ p, t.out = OutPorts.onlyPkt p
    | .calibrateZeroPoint _ => ∃ p, t.out = OutPorts.onlyPkt p
    | .calibrateSpanPoint _ _ => ∃ p, t.out = OutPorts.onlyPkt p
    | .setAutomaticBaselineCorrection _ _ => ∃ p, t.out = OutPorts.onlyPkt p
    | .setDetectionRange _ _ => ∃ p, t.out = OutPorts.onlyPkt p
    | .parsePayload _ => (∃ p, t.out = OutPorts.okPayload p) ∨ (∃ e, t.out = OutPorts.onlyErr e)
    | .parseGasConcentrationPpm _ =>
      (∃ v, v.toNat ≤ 65535 ∧ t.out = OutPorts.okPpm v) ∨ (∃ e, t.out = OutPorts.onlyErr e)

/-- 10 R29: after an operation, reading an output port it did not produce faults, whatever an earlier transaction left
there: it gives neither zero nor the earlier value. -/
def Obligations.UnproducedOutputsFaultWhenRead : Prop :=
  ∀ (i : Instr) (s : State), ∃ t, exec i s = .next t ∧
    match i with
    | .checksum _ =>
      t.readPkt = .error (.unproducedOutput .pkt) ∧ t.readStatus = .error (.unproducedOutput .status) ∧
      t.readPayload = .error (.unproducedOutput .payload) ∧ t.readPpm = .error (.unproducedOutput .ppm) ∧
      t.readErr = .error (.unproducedOutput .err)
    | .parsePayload _ =>
      t.readPkt = .error (.unproducedOutput .pkt) ∧ t.readCsum = .error (.unproducedOutput .csum) ∧
      t.readPpm = .error (.unproducedOutput .ppm) ∧
      ((t.readStatus = .ok .ok ∧ t.readErr = .error (.unproducedOutput .err)) ∨
       (t.readStatus = .ok .err ∧ t.readPayload = .error (.unproducedOutput .payload)))
    | .parseGasConcentrationPpm _ =>
      t.readPkt = .error (.unproducedOutput .pkt) ∧ t.readCsum = .error (.unproducedOutput .csum) ∧
      t.readPayload = .error (.unproducedOutput .payload) ∧
      ((t.readStatus = .ok .ok ∧ t.readErr = .error (.unproducedOutput .err)) ∨
       (t.readStatus = .ok .err ∧ t.readPpm = .error (.unproducedOutput .ppm)))
    | .readGasConcentration _ | .calibrateZeroPoint _ | .calibrateSpanPoint _ _
    | .setAutomaticBaselineCorrection _ _ | .setDetectionRange _ _ =>
      t.readCsum = .error (.unproducedOutput .csum) ∧ t.readStatus = .error (.unproducedOutput .status) ∧
      t.readPayload = .error (.unproducedOutput .payload) ∧ t.readPpm = .error (.unproducedOutput .ppm) ∧
      t.readErr = .error (.unproducedOutput .err)

/-- After reset every output port holds no value, so reading any of them faults (70 R250, 10 R29). That nothing is
presented on the input ports then, and that a step is refused, is the model's reading (log entries 3 and 4). -/
def Obligations.ResetLeavesEveryOutputWithoutValue : Prop :=
  State.reset.readPkt = .error (.unproducedOutput .pkt) ∧
  State.reset.readCsum = .error (.unproducedOutput .csum) ∧
  State.reset.readStatus = .error (.unproducedOutput .status) ∧
  State.reset.readPayload = .error (.unproducedOutput .payload) ∧
  State.reset.readPpm = .error (.unproducedOutput .ppm) ∧
  State.reset.readErr = .error (.unproducedOutput .err) ∧
  step State.reset = .refused (.noTransaction .noOperation)

/-- Every step, from any state whatever, leaves the outputs of exactly one result, with every value in the range the
rules give (10 R28, R29; 41 R127; 42 R158); so every sequence of transactions completes and keeps the invariant. -/
def Obligations.EveryStepLeavesLegalOutputs : Prop :=
  (∀ s t, step s = .next t → t.Inv ∧ t.out ≠ OutPorts.noValue) ∧
  (∀ (is : List Instr) (s : State), s.Inv → ∃ t, transactAll is s = .next t ∧ t.Inv)

/-- The invariant holds at reset. -/
def Obligations.ResetOutputsAreLegal : Prop := State.reset.Inv

/-- 10 R26: identical transactions give identical results, whatever came between them. -/
def Obligations.IdenticalTransactionsGiveIdenticalResults : Prop :=
  ∀ (i : Instr) (between : List Instr) (s : State),
    ∃ t u v, transact i s = .next t ∧ transactAll between t = .next u ∧ transact i u = .next v ∧ v.out = t.out

/-- A transaction after any history, errors included, gives what it gives as the first after reset (70 R250, R252;
60 R209). -/
def Obligations.FirstTransactionBehavesLikeAnyOther : Prop :=
  ∀ (earlier : List Instr) (i : Instr), ∃ s t u, transactAll earlier State.reset = .next s ∧
    transact i s = .next t ∧ transact i State.reset = .next u ∧ t.out = u.out

/-- 20 R51: performing an operation changes nothing but its outputs, the inbound buffer included; it is idempotent; and
presenting the same transaction twice gives the same result twice. -/
def Obligations.PresentingATransactionTwiceGivesTheSameResult : Prop :=
  (∀ (i : Instr) (s : State), ∃ t, exec i s = .next t ∧ t.block = s.block ∧ t.inp.buf = s.inp.buf ∧
    t.inp.span = s.inp.span ∧ exec i t = .next t) ∧
  (∀ (i : Instr) (s : State), ∃ t, transact i s = .next t ∧ transact i t = .next t)

/-- A step leaves the input ports as they are, so a second step with no new presentation performs the same transaction
again, to the same state. This is the model's reading of 20 R40, R51 and 70 R254, log entry 6 (DEDUCED, unsafe for claims
that count steps without presenting anew). -/
def Obligations.PerformingATransactionTwiceChangesNothing : Prop :=
  ∀ s t, step s = .next t → t.block = s.block ∧ t.inp = s.inp ∧ step t = .next t

/-- Transactions of two callers give the same results in either order (20 R53, 60 R215; one transaction at a time, log
entry 9). -/
def Obligations.TwoCallersSeeTheSameResultsInEitherOrder : Prop :=
  ∀ (i j : Instr) (s : State), ∃ a b c d,
    transact i s = .next a ∧ transact j a = .next b ∧ transact j s = .next c ∧ transact i c = .next d ∧
    a.out = d.out ∧ b.out = c.out

/-! ### checksum_unit -/

/-- 40 R100: `checksum(span)` on `op = 000` gives `1 + (0xFF - sum)` with every step modulo 256, the sum that of the seven
bytes, and changes nothing else. Arithmetic is in natural numbers. -/
def Obligations.ChecksumFollowsItsFormula : Prop :=
  (∀ t span, t.op = some 0b000 → t.span = some span → decode t = .ok (.checksum span)) ∧
  ∀ (s0 s1 s2 s3 s4 s5 s6 : Byte) (s : State), ∃ c : Byte,
    exec (.checksum ⟨s0, s1, s2, s3, s4, s5, s6⟩) s = .next { s with out := OutPorts.onlyCsum c } ∧
    c.toNat = (1 + (255 - byteSum [s0, s1, s2, s3, s4, s5, s6] % 256)) % 256

/-- 40 R101: the checksum is the negation of the exact byte sum, modulo 256. -/
def Obligations.ChecksumIsTheNegatedSum : Prop :=
  ∀ (span : Bytes7) (s : State), ∃ c : Byte,
    exec (.checksum span) s = .next { s with out := OutPorts.onlyCsum c } ∧
    c.toNat = (256 - byteSum [span.s0, span.s1, span.s2, span.s3, span.s4, span.s5, span.s6] % 256) % 256

/-- 40 R102: span and checksum sum to zero; and a nine-byte buffer that starts with 0xFF passes the checksum test exactly
when its bytes 1 to 8 sum to zero modulo 256. -/
def Obligations.SpanAndChecksumSumToZero : Prop :=
  (∀ (span : Bytes7) (s : State), ∃ c : Byte,
    exec (.checksum span) s = .next { s with out := OutPorts.onlyCsum c } ∧
    byteSum [span.s0, span.s1, span.s2, span.s3, span.s4, span.s5, span.s6, c] % 256 = 0) ∧
  (∀ (b1 b2 b3 b4 b5 b6 b7 b8 : Byte) (s : State), ∃ t,
    exec (.parsePayload [0xFF, b1, b2, b3, b4, b5, b6, b7, b8]) s = .next t ∧
    ((∀ c f, t.out.err ≠ some (.wrongChecksum c f)) ↔ byteSum [b1, b2, b3, b4, b5, b6, b7, b8] % 256 = 0))

/-- 40 R104: spans have the same checksum when, and only when, their sums agree modulo 256; in particular when one is a
reordering of the other; and the rule's example. -/
def Obligations.ChecksumDependsOnlyOnTheSum : Prop :=
  (∀ (x y : Bytes7), byteSum x.bytes % 256 = byteSum y.bytes % 256 ↔ checksum x = checksum y) ∧
  (∀ (x y : Bytes7), x.bytes.Perm y.bytes → checksum x = checksum y) ∧
  (∀ (x : Bytes7) (s : State), exec (.checksum x) s = .next { s with out := OutPorts.onlyCsum (checksum x) }) ∧
  checksum ⟨0x80, 0x80, 0, 0, 0, 0, 0⟩ = 0x00 ∧ checksum ⟨0, 0, 0, 0, 0, 0, 0⟩ = 0x00

/-! ### packet_encoder -/

/-- 41 R121: `read_gas_concentration(dev)`: its select, its packet, its wire pattern, and the corner `dev = 0x86`. -/
def Obligations.ReadGasConcentrationBuildsItsPacket : Prop :=
  (∀ t dev, t.op = some 0b001 → t.dev = some dev → decode t = .ok (.readGasConcentration dev)) ∧
  (∀ (dev : Byte) (s : State), ∃ p : Packet,
    exec (.readGasConcentration dev) s = .next { s with out := OutPorts.onlyPkt p } ∧
    p = ⟨0xFF, dev, 0x86, 0x00, 0x00, 0x00, 0x00, 0x00, -(dev + 0x86)⟩ ∧
    p.b8 = checksum ⟨dev, 0x86, 0x00, 0x00, 0x00, 0x00, 0x00⟩ ∧
    p.bits = 0b11111111#8 ++ dev ++ 0b10000110#8 ++ 0#8 ++ 0#8 ++ 0#8 ++ 0#8 ++ 0#8 ++ p.b8) ∧
  (∀ s : State, exec (.parseGasConcentrationPpm [0xFF, 0x86, 0x86, 0, 0, 0, 0, 0, 0xF4]) s =
    .next { s with out := OutPorts.okPpm 34304 })

/-- 41 R122: `calibrate_zero_point(dev)`: its select, its packet and its wire pattern. -/
def Obligations.CalibrateZeroPointBuildsItsPacket : Prop :=
  (∀ t dev, t.op = some 0b010 → t.dev = some dev → decode t = .ok (.calibrateZeroPoint dev)) ∧
  (∀ (dev : Byte) (s : State), ∃ p : Packet,
    exec (.calibrateZeroPoint dev) s = .next { s with out := OutPorts.onlyPkt p } ∧
    p = ⟨0xFF, dev, 0x87, 0x00, 0x00, 0x00, 0x00, 0x00, -(dev + 0x87)⟩ ∧
    p.b8 = checksum ⟨dev, 0x87, 0x00, 0x00, 0x00, 0x00, 0x00⟩ ∧
    p.bits = 0b11111111#8 ++ dev ++ 0b10000111#8 ++ 0#8 ++ 0#8 ++ 0#8 ++ 0#8 ++ 0#8 ++ p.b8)

/-- 41 R123: `calibrate_span_point(dev, value)`: its select, its packet with the big-endian value, and its wire pattern. -/
def Obligations.CalibrateSpanPointBuildsItsPacket : Prop :=
  (∀ t dev value, t.op = some 0b011 → t.dev = some dev → t.value = some value →
    decode t = .ok (.calibrateSpanPoint dev value)) ∧
  (∀ (dev : Byte) (value : Half) (s : State), ∃ (p : Packet) (h l : Byte),
    exec (.calibrateSpanPoint dev value) s = .next { s with out := OutPorts.onlyPkt p } ∧
    h = value.extractLsb' 8 8 ∧ l = value.extractLsb' 0 8 ∧
    p = ⟨0xFF, dev, 0x88, h, l, 0x00, 0x00, 0x00, -(dev + 0x88 + h + l)⟩ ∧
    p.b8 = checksum ⟨dev, 0x88, h, l, 0x00, 0x00, 0x00⟩ ∧
    p.bits = 0b11111111#8 ++ dev ++ 0b10001000#8 ++ h ++ l ++ 0#8 ++ 0#8 ++ 0#8 ++ p.b8)

/-- 41 R124: `set_automatic_baseline_correction(dev, enabled)`: its select, its packet with the flag byte (30 R67: 0xA0 or
0x00, as bits `enabled:0:enabled:0:0:0:0:0`, and byte 4 zero), and its wire pattern. -/
def Obligations.SetAutomaticBaselineCorrectionBuildsItsPacket : Prop :=
  (∀ t dev enabled, t.op = some 0b100 → t.dev = some dev → t.enabled = some enabled →
    decode t = .ok (.setAutomaticBaselineCorrection dev enabled)) ∧
  (∀ (dev : Byte) (enabled : Bool) (s : State), ∃ (p : Packet) (f e : Byte),
    exec (.setAutomaticBaselineCorrection dev enabled) s = .next { s with out := OutPorts.onlyPkt p } ∧
    f = (if enabled then 0xA0 else 0x00) ∧
    e = BitVec.ofBool enabled ++ 0#1 ++ BitVec.ofBool enabled ++ 0#5 ∧
    p = ⟨0xFF, dev, 0x79, f, 0x00, 0x00, 0x00, 0x00, -(dev + 0x79 + f)⟩ ∧
    p.b8 = checksum ⟨dev, 0x79, f, 0x00, 0x00, 0x00, 0x00⟩ ∧
    p.bits = 0b11111111#8 ++ dev ++ 0b01111001#8 ++ e ++ 0#8 ++ 0#8 ++ 0#8 ++ 0#8 ++ p.b8)

/-- 41 R125: `set_detection_range(dev, value)`: its select, its packet with the big-endian value, and its wire pattern. -/
def Obligations.SetDetectionRangeBuildsItsPacket : Prop :=
  (∀ t dev value, t.op = some 0b101 → t.dev = some dev → t.value = some value →
    decode t = .ok (.setDetectionRange dev value)) ∧
  (∀ (dev : Byte) (value : Half) (s : State), ∃ (p : Packet) (h l : Byte),
    exec (.setDetectionRange dev value) s = .next { s with out := OutPorts.onlyPkt p } ∧
    h = value.extractLsb' 8 8 ∧ l = value.extractLsb' 0 8 ∧
    p = ⟨0xFF, dev, 0x99, h, l, 0x00, 0x00, 0x00, -(dev + 0x99 + h + l)⟩ ∧
    p.b8 = checksum ⟨dev, 0x99, h, l, 0x00, 0x00, 0x00⟩ ∧
    p.bits = 0b11111111#8 ++ dev ++ 0b10011001#8 ++ h ++ l ++ 0#8 ++ 0#8 ++ 0#8 ++ p.b8)

/-- 30 R66, 20 R44: byte 3 of a 16-bit parameter is its high byte and byte 4 its low byte, shift before mask. -/
def Obligations.SixteenBitParametersAreBigEndian : Prop :=
  ∀ (dev : Byte) (value : Half) (s : State), ∃ p q : Packet,
    exec (.calibrateSpanPoint dev value) s = .next { s with out := OutPorts.onlyPkt p } ∧
    exec (.setDetectionRange dev value) s = .next { s with out := OutPorts.onlyPkt q } ∧
    p.b3.toNat = (value.toNat >>> 8) &&& 0xFF ∧ p.b4.toNat = value.toNat &&& 0xFF ∧
    p.b3 = value.extractLsb' 8 8 ∧ p.b4 = value.extractLsb' 0 8 ∧ q.b3 = p.b3 ∧ q.b4 = p.b4

/-- 30 R64: each command's code, and the operation that puts it at index 2 of a request; 30 R65: the codes are distinct,
the partial inverse is defined on exactly these five bytes, and `parse_gas_concentration_ppm` tests for 0x86 by it. -/
def Obligations.CommandCodesAreThoseOfTheTable : Prop :=
  (Command.code .readGasConcentration = 0x86 ∧ Command.code .calibrateZero = 0x87 ∧
   Command.code .calibrateSpan = 0x88 ∧ Command.code .setAutomaticBaselineCorrection = 0x79 ∧
   Command.code .setSensorDetectionRange = 0x99) ∧
  (∀ c d : Command, c.code = d.code → c = d) ∧
  (∀ (b : Byte) (c : Command), Command.ofCode b = some c ↔ c.code = b) ∧
  (∀ b : Byte, (Command.ofCode b).isSome = true ↔ b ∈ [0x86, 0x87, 0x88, 0x79, 0x99]) ∧
  (∀ (dev : Byte) (value : Half) (enabled : Bool) (s : State), ∃ p q r t u : Packet,
    exec (.readGasConcentration dev) s = .next { s with out := OutPorts.onlyPkt p } ∧
    p.b2 = Command.code .readGasConcentration ∧
    exec (.calibrateZeroPoint dev) s = .next { s with out := OutPorts.onlyPkt q } ∧
    q.b2 = Command.code .calibrateZero ∧
    exec (.calibrateSpanPoint dev value) s = .next { s with out := OutPorts.onlyPkt r } ∧
    r.b2 = Command.code .calibrateSpan ∧
    exec (.setAutomaticBaselineCorrection dev enabled) s = .next { s with out := OutPorts.onlyPkt t } ∧
    t.b2 = Command.code .setAutomaticBaselineCorrection ∧
    exec (.setDetectionRange dev value) s = .next { s with out := OutPorts.onlyPkt u } ∧
    u.b2 = Command.code .setSensorDetectionRange) ∧
  (∀ (p : Packet) (s : State), WellFramed p → ∃ t, exec (.parseGasConcentrationPpm p.bytes) s = .next t ∧
    (t.out.status = some .ok ↔ Command.ofCode p.b1 = some .readGasConcentration))

/-- 41 R126, R127: every encoder operation, on all operands, gives a nine-byte packet, well framed, with no error; and
`parse_payload` never fails on it. -/
def Obligations.EveryRequestIsWellFramed : Prop :=
  ∀ (i : Instr) (f : RequestFields), requestFields i = some f → ∀ s u : State, ∃ (p : Packet) (t : State),
    exec i s = .next { s with out := OutPorts.onlyPkt p } ∧
    p.bytes.length = 9 ∧ p.bytes[0]? = some 0xFF ∧ p.b8 = checksum p.payload ∧
    exec (.parsePayload p.bytes) u = .next t ∧ t.out.status = some .ok

/-- 41 R129: two encoder transactions give the same packet only if they are the same operation with the same operands. -/
def Obligations.EncoderIsInjective : Prop :=
  ∀ (i j : Instr) (s u t v : State) (p : Packet), exec i s = .next t → exec j u = .next v →
    t.out.pkt = some p → v.out.pkt = some p → i = j

/-- 30 R73: the encoder writes 0x00 to bytes 5, 6 and 7; the decoder accepts any value there, and passes it through
unchanged. -/
def Obligations.ReservedBytesAreZeroOutAndAnythingIn : Prop :=
  (∀ (i : Instr) (f : RequestFields), requestFields i = some f → ∀ s : State, ∃ p : Packet,
    exec i s = .next { s with out := OutPorts.onlyPkt p } ∧ p.b5 = 0x00 ∧ p.b6 = 0x00 ∧ p.b7 = 0x00) ∧
  (∀ (b1 b2 b3 b4 x5 x6 x7 c : Byte) (s : State), c = checksum ⟨b1, b2, b3, b4, x5, x6, x7⟩ →
    exec (.parsePayload [0xFF, b1, b2, b3, b4, x5, x6, x7, c]) s =
      .next { s with out := OutPorts.okPayload ⟨b1, b2, b3, b4, x5, x6, x7⟩ })

/-! ### packet_decoder -/

/-- 42 R150: `parse_payload(buf)` on `op = 110`: length, start byte, checksum, in this order, then the payload. -/
def Obligations.ParsePayloadFollowsItsSteps : Prop :=
  (∀ t buf, t.op = some 0b110 → t.buf = some buf → decode t = .ok (.parsePayload buf)) ∧
  (∀ (buf : List Byte) (s : State), buf.length ≠ 9 →
    exec (.parsePayload buf) s = .next { s with out := OutPorts.onlyErr (.wrongPacketLength buf.length) }) ∧
  (∀ (b0 b1 b2 b3 b4 b5 b6 b7 b8 : Byte) (s : State), b0 ≠ 0xFF →
    exec (.parsePayload [b0, b1, b2, b3, b4, b5, b6, b7, b8]) s =
      .next { s with out := OutPorts.onlyErr (.wrongStartByte b0) }) ∧
  (∀ (b1 b2 b3 b4 b5 b6 b7 b8 c : Byte) (s : State), c = checksum ⟨b1, b2, b3, b4, b5, b6, b7⟩ → c ≠ b8 →
    exec (.parsePayload [0xFF, b1, b2, b3, b4, b5, b6, b7, b8]) s =
      .next { s with out := OutPorts.onlyErr (.wrongChecksum c b8) }) ∧
  (∀ (b1 b2 b3 b4 b5 b6 b7 b8 : Byte) (s : State), checksum ⟨b1, b2, b3, b4, b5, b6, b7⟩ = b8 →
    exec (.parsePayload [0xFF, b1, b2, b3, b4, b5, b6, b7, b8]) s =
      .next { s with out := OutPorts.okPayload ⟨b1, b2, b3, b4, b5, b6, b7⟩ })

/-- 42 R151: `parse_payload` succeeds if and only if the buffer has nine bytes, the first is 0xFF and the others sum to
zero modulo 256; and then the payload is the buffer's bytes 1 to 7 unchanged (20 R52). -/
def Obligations.ParsePayloadSucceedsExactlyOnFramedBuffers : Prop :=
  ∀ (buf : List Byte) (s : State), ∃ t, exec (.parsePayload buf) s = .next t ∧
    (t.out.status = some .ok ↔
      buf.length = 9 ∧ buf[0]? = some 0xFF ∧ byteSum (buf.drop 1) % 256 = 0) ∧
    (t.out.status = some .ok → t.out.payload.map Bytes7.bytes = some ((buf.drop 1).take 7))

/-- 42 R152: `parse_gas_concentration_ppm(buf)` on `op = 111`: the errors of `parse_payload` unchanged, then the echoed
command, then the concentration. -/
def Obligations.ParseGasConcentrationFollowsItsSteps : Prop :=
  (∀ t buf, t.op = some 0b111 → t.buf = some buf → decode t = .ok (.parseGasConcentrationPpm buf)) ∧
  (∀ (buf : List Byte) (s : State) (e : DecodeError),
    exec (.parsePayload buf) s = .next { s with out := OutPorts.onlyErr e } →
    exec (.parseGasConcentrationPpm buf) s = .next { s with out := OutPorts.onlyErr e }) ∧
  (∀ (buf : List Byte) (s : State) (p : Bytes7),
    exec (.parsePayload buf) s = .next { s with out := OutPorts.okPayload p } → p.s0 ≠ 0x86 →
    exec (.parseGasConcentrationPpm buf) s = .next { s with out := OutPorts.onlyErr (.wrongPacketType 0x86 p.s0) }) ∧
  (∀ (buf : List Byte) (s : State) (p : Bytes7),
    exec (.parsePayload buf) s = .next { s with out := OutPorts.okPayload p } → p.s0 = 0x86 →
    ∃ v : Word32, v.toNat = 256 * p.s1.toNat + p.s2.toNat ∧
      exec (.parseGasConcentrationPpm buf) s = .next { s with out := OutPorts.okPpm v })

/-- 42 R153: a buffer on which `parse_payload` gives an error gets exactly that error from `parse_gas_concentration_ppm`,
and never `WrongPacketType`. -/
def Obligations.ErrorsOfParsePayloadArePropagatedUnchanged : Prop :=
  ∀ (buf : List Byte) (s t : State) (e : DecodeError), exec (.parsePayload buf) s = .next t → t.out.err = some e →
    exec (.parseGasConcentrationPpm buf) s = .next t ∧ ∀ x y, e ≠ .wrongPacketType x y

/-- `parse_gas_concentration_ppm` answers `Ok(v)` on exactly the buffers of the response format, with `v` their
concentration (30 R62, R72; 42 R152, R155). -/
def Obligations.AcceptedResponsesAreExactlyTheirFormat : Prop :=
  ∀ (buf : List Byte) (s : State) (v : Word32),
    exec (.parseGasConcentrationPpm buf) s = .next { s with out := OutPorts.okPpm v } ↔
      ∃ h l x4 x5 x6 x7 : Byte,
        buf = [0xFF, 0x86, h, l, x4, x5, x6, x7, checksum ⟨0x86, h, l, x4, x5, x6, x7⟩] ∧
        v = BitVec.ofNat 32 (256 * h.toNat + l.toNat)

/-- 30 R68, 20 R45: the concentration is big-endian, exact, and its bits 31 to 16 are zero. -/
def Obligations.ConcentrationIsBigEndianAndExact : Prop :=
  ∀ (h l x4 x5 x6 x7 : Byte) (s : State), ∃ v : Word32,
    exec (.parseGasConcentrationPpm [0xFF, 0x86, h, l, x4, x5, x6, x7, checksum ⟨0x86, h, l, x4, x5, x6, x7⟩]) s =
      .next { s with out := OutPorts.okPpm v } ∧
    v.toNat = 256 * h.toNat + l.toNat ∧ v.toNat ≤ 65535 ∧ v.extractLsb' 16 16 = 0

/-- 60 R201 to R204, R207: each error is reported exactly under its own condition, with the offending values; the
conditions exclude each other in the order length, start byte, checksum, echoed command. -/
def Obligations.ErrorsAreReportedInTheirOrder : Prop :=
  ∀ (buf : List Byte) (s : State), ∃ t u,
    exec (.parsePayload buf) s = .next t ∧ exec (.parseGasConcentrationPpm buf) s = .next u ∧
    (∀ x ∈ [t, u],
      (∀ n, x.out.err = some (.wrongPacketLength n) ↔ buf.length ≠ 9 ∧ n = buf.length) ∧
      (∀ b, x.out.err = some (.wrongStartByte b) ↔ buf.length = 9 ∧ buf[0]? = some b ∧ b ≠ 0xFF) ∧
      (∀ c f, x.out.err = some (.wrongChecksum c f) ↔
        ∃ p : Packet, buf = p.bytes ∧ p.b0 = 0xFF ∧ c = checksum p.payload ∧ f = p.b8 ∧ c ≠ f)) ∧
    (∀ e f, u.out.err = some (.wrongPacketType e f) ↔
      ∃ p : Packet, buf = p.bytes ∧ p.b0 = 0xFF ∧ p.b8 = checksum p.payload ∧ e = 0x86 ∧ f = p.b1 ∧ f ≠ 0x86) ∧
    (∀ e f, t.out.err ≠ some (.wrongPacketType e f))

/-- 30 R74: no operation produces a command byte outside the table; `parse_payload` passes any value through; and
`parse_gas_concentration_ppm` rejects every other first payload byte than 0x86. -/
def Obligations.UnknownCommandCodesAreNeverSentAndPassThrough : Prop :=
  (∀ (i : Instr) (s : State), ∃ t, exec i s = .next t ∧
    ∀ p, t.out.pkt = some p → p.b2 ∈ [0x86, 0x87, 0x88, 0x79, 0x99]) ∧
  (∀ (p : Packet) (s : State), WellFramed p →
    exec (.parsePayload p.bytes) s = .next { s with out := OutPorts.okPayload p.payload }) ∧
  (∀ (p : Packet) (s : State), WellFramed p → p.b1 ≠ 0x86 →
    exec (.parseGasConcentrationPpm p.bytes) s =
      .next { s with out := OutPorts.onlyErr (.wrongPacketType 0x86 p.b1) })

/-- 42 R156, 41 R128: the round trip. The packet of any encoder operation parses, and its payload is the device number,
the command code, the two parameter bytes and three zeros. -/
def Obligations.RequestsRoundTripThroughParsePayload : Prop :=
  ∀ (i : Instr) (f : RequestFields), requestFields i = some f → ∀ s u : State, ∃ p : Packet,
    exec i s = .next { s with out := OutPorts.onlyPkt p } ∧
    exec (.parsePayload p.bytes) u =
      .next { u with out := OutPorts.okPayload ⟨f.dev, f.code, f.b3, f.b4, 0x00, 0x00, 0x00⟩ } ∧
    p.b1 = f.dev ∧ p.b2 = f.code

/-- 42 R157: on an encoder's packet `parse_gas_concentration_ppm` succeeds exactly when `dev = 0x86`, and then gives
`256 * code + b3`. -/
def Obligations.RequestsDecodeAsResponsesExactlyForDevice86 : Prop :=
  (∀ (i : Instr) (f : RequestFields), requestFields i = some f → ∀ s u : State, ∃ p : Packet,
    exec i s = .next { s with out := OutPorts.onlyPkt p } ∧
    (f.dev ≠ 0x86 → exec (.parseGasConcentrationPpm p.bytes) u =
      .next { u with out := OutPorts.onlyErr (.wrongPacketType 0x86 f.dev) }) ∧
    (f.dev = 0x86 → ∃ v : Word32, v.toNat = 256 * f.code.toNat + f.b3.toNat ∧
      exec (.parseGasConcentrationPpm p.bytes) u = .next { u with out := OutPorts.okPpm v })) ∧
  (∀ s : State, ∃ p : Packet,
    exec (.readGasConcentration 0x86) s = .next { s with out := OutPorts.onlyPkt p } ∧
    exec (.parseGasConcentrationPpm p.bytes) s = .next { s with out := OutPorts.okPpm 34304 })

/-! ### Errors on the `err` port -/

/-- 60 R205: `err_kind`, `err_f1` and `err_f2` of each kind; a field marked "no value" faults when read. -/
def Obligations.ErrorFieldsHaveTheirNumericEncoding : Prop :=
  ∀ s : State,
    (∀ n, s.out.err = some (.wrongPacketLength n) →
      s.readErrKind = .ok 0b00 ∧ s.readErrF1 = .ok (.length n) ∧ s.readErrF2 = .error (.unproducedOutput .errF2)) ∧
    (∀ b, s.out.err = some (.wrongStartByte b) →
      s.readErrKind = .ok 0b01 ∧ s.readErrF1 = .ok (.byte b) ∧ s.readErrF2 = .error (.unproducedOutput .errF2)) ∧
    (∀ c f, s.out.err = some (.wrongChecksum c f) →
      s.readErrKind = .ok 0b10 ∧ s.readErrF1 = .ok (.byte c) ∧ s.readErrF2 = .ok f) ∧
    (∀ e f, s.out.err = some (.wrongPacketType e f) →
      s.readErrKind = .ok 0b11 ∧ s.readErrF1 = .ok (.byte e) ∧ s.readErrF2 = .ok f)

/-- After an operation that produced no error, no field of the numeric view of `err` can be read, whatever error an earlier
transaction left; after one that produced an error, kind and first field can (60 R205, 10 R29; that the three fields fault
when `err` holds nothing is the model's reading, log entry 12). -/
def Obligations.ErrorFieldsFaultWithoutAnError : Prop :=
  ∀ (i : Instr) (s : State), ∃ t, exec i s = .next t ∧
    match i with
    | .parsePayload _ | .parseGasConcentrationPpm _ =>
      (t.readStatus = .ok .ok ∧ NoErrorField t) ∨
      (t.readStatus = .ok .err ∧ ∃ k f, t.readErrKind = .ok k ∧ t.readErrF1 = .ok f)
    | .checksum _ | .readGasConcentration _ | .calibrateZeroPoint _ | .calibrateSpanPoint _ _
    | .setAutomaticBaselineCorrection _ _ | .setDetectionRange _ _ => NoErrorField t

/-- 00 R9: a realization's `LEN_W`-bit field reports every length it covers exactly, whatever `LEN_W` is. -/
def Obligations.CoveredLengthsAreReportedExactly : Prop :=
  ∀ (buf : List Byte) (s : State), CoveredLength buf → buf.length ≠ 9 → ∃ t u n,
    exec (.parsePayload buf) s = .next t ∧ exec (.parseGasConcentrationPpm buf) s = .next u ∧
    t.out.err = some (.wrongPacketLength n) ∧ u.out.err = some (.wrongPacketLength n) ∧
    n = buf.length ∧ (lengthField n).toNat = buf.length
end

