-- ==== Sys2Proof/Laws/PerInstr.lean ====
section
/-! SUPPORT. Statements about every operation as syntax, one lemma for each constructor. -/

namespace Sys2Proof.Laws.EncodedPorts

/-- The encoder presents the operation's own select, and a value on exactly the ports that operation reads (10 R27, R30). -/
def Statement (i : Instr) : Prop :=
  (encode i).op = some i.opSelect ∧ ∀ p : InPort, (encode i).drives p = (operandPorts i.opSelect).contains p

theorem checksum (span : Bytes7) : Statement (.checksum span) :=
  ⟨rfl, fun p => by cases p <;> rfl⟩

theorem readGasConcentration (dev : Byte) : Statement (.readGasConcentration dev) :=
  ⟨rfl, fun p => by cases p <;> rfl⟩

theorem calibrateZeroPoint (dev : Byte) : Statement (.calibrateZeroPoint dev) :=
  ⟨rfl, fun p => by cases p <;> rfl⟩

theorem calibrateSpanPoint (dev : Byte) (value : Half) : Statement (.calibrateSpanPoint dev value) :=
  ⟨rfl, fun p => by cases p <;> rfl⟩

theorem setAutomaticBaselineCorrection (dev : Byte) (enabled : Bool) :
    Statement (.setAutomaticBaselineCorrection dev enabled) :=
  ⟨rfl, fun p => by cases p <;> rfl⟩

theorem setDetectionRange (dev : Byte) (value : Half) : Statement (.setDetectionRange dev value) :=
  ⟨rfl, fun p => by cases p <;> rfl⟩

theorem parsePayload (buf : List Byte) : Statement (.parsePayload buf) :=
  ⟨rfl, fun p => by cases p <;> rfl⟩

theorem parseGasConcentrationPpm (buf : List Byte) : Statement (.parseGasConcentrationPpm buf) :=
  ⟨rfl, fun p => by cases p <;> rfl⟩

end Sys2Proof.Laws.EncodedPorts
end

