-- ==== Sys2Proof/Laws/State.lean ====
section
/-! SUPPORT. One lemma for each field of the state under each update, true by rfl. -/

namespace Sys2Proof.Machine

@[simp] theorem deliver_block (s : State) (r : Result) : (s.deliver r).block = s.block := rfl
@[simp] theorem deliver_inp (s : State) (r : Result) : (s.deliver r).inp = s.inp := rfl
@[simp] theorem deliver_out (s : State) (r : Result) : (s.deliver r).out = r.ports := rfl

@[simp] theorem raise_block (s : State) (e : DecodeError) : (s.raise e).block = s.block := rfl
@[simp] theorem raise_inp (s : State) (e : DecodeError) : (s.raise e).inp = s.inp := rfl
@[simp] theorem raise_out (s : State) (e : DecodeError) : (s.raise e).out = (Result.error e).ports := rfl

@[simp] theorem presentPorts_block (s : State) (t : InPorts) : (s.presentPorts t).block = s.block := rfl
@[simp] theorem presentPorts_inp (s : State) (t : InPorts) : (s.presentPorts t).inp = t := rfl
@[simp] theorem presentPorts_out (s : State) (t : InPorts) : (s.presentPorts t).out = OutPorts.noValue := rfl

@[simp] theorem present_block (s : State) (i : Instr) : (s.present i).block = s.block := rfl
@[simp] theorem present_inp (s : State) (i : Instr) : (s.present i).inp = encode i := rfl
@[simp] theorem present_out (s : State) (i : Instr) : (s.present i).out = OutPorts.noValue := rfl

@[simp] theorem withFetchWord_block (s : State) (nbits w : Nat) : (s.withFetchWord nbits w).block = s.block := rfl
@[simp] theorem withFetchWord_inp (s : State) (nbits w : Nat) : (s.withFetchWord nbits w).inp = tableWordPorts nbits w := rfl
@[simp] theorem withFetchWord_out (s : State) (nbits w : Nat) : (s.withFetchWord nbits w).out = OutPorts.noValue := rfl

/-- Presenting replaces the whole presentation and every output, so nothing of what stood there before is left. -/
@[simp] theorem deliver_presentPorts (s : State) (r : Result) (t : InPorts) :
    (s.deliver r).presentPorts t = s.presentPorts t := rfl

/-- Delivering twice keeps the second result only: nothing of an earlier transaction stays (10 R29). -/
@[simp] theorem deliver_deliver (s : State) (r r' : Result) : (s.deliver r).deliver r' = s.deliver r' := rfl

end Sys2Proof.Machine
end

