-- ==== Sys2Proof/Laws/Units.lean ====
section
/-! SUPPORT. One lemma for each shared operation of the three units: what it computes, or every way it can end. -/

namespace Sys2Proof

/-- A packet's own bytes read back as that packet. -/
theorem Packet.ofBytes_bytes (p : Packet) : Packet.ofBytes p.bytes = some p := rfl

/-- Exactly the buffers of nine bytes are packets. -/
theorem Packet.ofBytes_eq_some {buf : List Byte} {p : Packet} : Packet.ofBytes buf = some p ↔ buf = p.bytes := by
  constructor
  · intro h
    unfold Packet.ofBytes at h
    split at h
    · cases h; rfl
    · cases h
  · rintro rfl; rfl

/-- A buffer is no packet exactly when its length is not nine. -/
theorem Packet.ofBytes_eq_none {buf : List Byte} : Packet.ofBytes buf = none ↔ buf.length ≠ 9 := by
  constructor
  · intro h hlen
    match buf, hlen with
    | [_, _, _, _, _, _, _, _, _], _ => cases h
  · intro h
    cases hp : Packet.ofBytes buf with
    | none => rfl
    | some p => exact absurd (by rw [Packet.ofBytes_eq_some.mp hp]; rfl) h

/-- Bit k of `P[71:0]`, byte 8 in the lowest eight bits and byte 0 in the highest (30 R60). -/
theorem Packet.getLsbD_bits (p : Packet) (k : Nat) : p.bits.getLsbD k =
    if k < 8 then p.b8.getLsbD k
    else if k - 8 < 8 then p.b7.getLsbD (k - 8)
    else if k - 8 - 8 < 8 then p.b6.getLsbD (k - 8 - 8)
    else if k - 8 - 8 - 8 < 8 then p.b5.getLsbD (k - 8 - 8 - 8)
    else if k - 8 - 8 - 8 - 8 < 8 then p.b4.getLsbD (k - 8 - 8 - 8 - 8)
    else if k - 8 - 8 - 8 - 8 - 8 < 8 then p.b3.getLsbD (k - 8 - 8 - 8 - 8 - 8)
    else if k - 8 - 8 - 8 - 8 - 8 - 8 < 8 then p.b2.getLsbD (k - 8 - 8 - 8 - 8 - 8 - 8)
    else if k - 8 - 8 - 8 - 8 - 8 - 8 - 8 < 8 then p.b1.getLsbD (k - 8 - 8 - 8 - 8 - 8 - 8 - 8)
    else p.b0.getLsbD (k - 8 - 8 - 8 - 8 - 8 - 8 - 8 - 8) := by
  change (p.b0 ++ p.b1 ++ p.b2 ++ p.b3 ++ p.b4 ++ p.b5 ++ p.b6 ++ p.b7 ++ p.b8 :
    BitVec (8 + 8 + 8 + 8 + 8 + 8 + 8 + 8 + 8)).getLsbD k = _
  simp only [BitVec.getLsbD_append]

namespace Machine

/-- `(value >> 8) & 0xFF` is the field `value[15:8]` (30 R66). -/
theorem valueHigh_eq (v : Half) : valueHigh v = v.extractLsb' 8 8 := by
  apply BitVec.eq_of_toNat_eq
  have mask := Nat.and_two_pow_sub_one_eq_mod (v.toNat >>> 8 % 256) 8
  simp only [Nat.reducePow, Nat.add_one_sub_one, Nat.mod_mod] at mask
  simp [valueHigh, mask]

/-- `value & 0xFF` is the field `value[7:0]` (30 R66). -/
theorem valueLow_eq (v : Half) : valueLow v = v.extractLsb' 0 8 := by
  apply BitVec.eq_of_toNat_eq
  have mask := Nat.and_two_pow_sub_one_eq_mod (v.toNat % 256) 8
  simp only [Nat.reducePow, Nat.add_one_sub_one, Nat.mod_mod] at mask
  simp [valueLow, mask]

/-- `0x01 + (0xFF - x)` is negation modulo 256. -/
theorem one_add_complement (x : Byte) : 0x01 + (0xFF - x) = -x := by bv_omega

/-- The checksum as the negated byte sum, in byte arithmetic. -/
theorem checksum_eq_neg (s : Bytes7) :
    checksum s = -(s.s0 + s.s1 + s.s2 + s.s3 + s.s4 + s.s5 + s.s6) := by
  unfold checksum
  rw [one_add_complement]
  simp [wrappingSum, Bytes7.bytes]

/-- The sum of a request's span: its three last bytes are zero. -/
theorem checksum_request (dev code b3 b4 : Byte) :
    checksum ⟨dev, code, b3, b4, 0#8, 0#8, 0#8⟩ = -(dev + code + b3 + b4) := by
  simp [checksum_eq_neg]

/-- Every way `parsePayload` can end, with the condition of each. -/
theorem parsePayload_cases (buf : List Byte) :
    (buf.length ≠ 9 ∧ parsePayload buf = .error (.wrongPacketLength buf.length)) ∨
    ∃ p : Packet, buf = p.bytes ∧
      ((p.b0 ≠ 0xFF ∧ parsePayload buf = .error (.wrongStartByte p.b0)) ∨
       (p.b0 = 0xFF ∧ checksum p.payload ≠ p.b8 ∧
          parsePayload buf = .error (.wrongChecksum (checksum p.payload) p.b8)) ∨
       (p.b0 = 0xFF ∧ checksum p.payload = p.b8 ∧ parsePayload buf = .ok p.payload)) := by
  cases hp : Packet.ofBytes buf with
  | none => exact .inl ⟨Packet.ofBytes_eq_none.mp hp, by simp [parsePayload, hp]⟩
  | some p =>
    refine .inr ⟨p, Packet.ofBytes_eq_some.mp hp, ?_⟩
    by_cases h0 : p.b0 = 0xFF
    · by_cases hc : checksum p.payload = p.b8
      · exact .inr (.inr ⟨h0, hc, by simp [parsePayload, hp, startByte, h0, hc]⟩)
      · exact .inr (.inl ⟨h0, hc, by simp [parsePayload, hp, startByte, h0, hc]⟩)
    · exact .inl ⟨h0, by simp only [parsePayload, hp]; exact if_pos h0⟩

/-- An error of `parsePayload` is the error of `parseGasConcentrationPpm`. -/
theorem parseGas_of_error {buf : List Byte} {e : DecodeError} (h : parsePayload buf = .error e) :
    parseGasConcentrationPpm buf = .error e := by
  simp [parseGasConcentrationPpm, h]

/-- On a payload, `parseGasConcentrationPpm` tests the echoed command and gives the concentration. -/
theorem parseGas_of_ok {buf : List Byte} {p : Bytes7} (h : parsePayload buf = .ok p) :
    parseGasConcentrationPpm buf =
      if p.s0 ≠ 0x86 then .error (.wrongPacketType 0x86 p.s0) else .ok (concentration p) := by
  simp only [parseGasConcentrationPpm, h, gasCode, Command.code]
  rfl

/-- A decoder transaction delivers one result, `Ok` or the error. -/
theorem answer_delivers {α : Type} (ok : α → Result) (r : Except DecodeError α) (s : State) :
    ∃ res, answer ok r s = .next (s.deliver res) := by
  cases r with
  | ok v => exact ⟨ok v, rfl⟩
  | error e => exact ⟨.error e, rfl⟩

/-- Every operation delivers one result. -/
theorem exec_delivers (i : Instr) (s : State) : ∃ r, exec i s = .next (s.deliver r) := by
  cases i with
  | checksum span => exact ⟨_, rfl⟩
  | readGasConcentration dev => exact ⟨_, rfl⟩
  | calibrateZeroPoint dev => exact ⟨_, rfl⟩
  | calibrateSpanPoint dev value => exact ⟨_, rfl⟩
  | setAutomaticBaselineCorrection dev enabled => exact ⟨_, rfl⟩
  | setDetectionRange dev value => exact ⟨_, rfl⟩
  | parsePayload buf => exact answer_delivers _ _ _
  | parseGasConcentrationPpm buf => exact answer_delivers _ _ _

/-- Everything a step that answers a next state can have done. -/
theorem step_cases {s t : State} (h : step s = .next t) :
    ∃ i r, decode s.inp = .ok i ∧ exec i s = .next t ∧ t = s.deliver r := by
  unfold step at h
  split at h
  · cases h
  next i hd =>
    obtain ⟨r, hr⟩ := exec_delivers i s
    refine ⟨i, r, hd, h, ?_⟩
    rw [hr] at h
    exact (Host.Outcome.next.inj h).symm

end Machine
end Sys2Proof
end

