-- ==== Sys2Proof/Tests/Slice0.lean ====
section
/-! SUPPORT. Tests. Every expected value is the spec's own: the vectors S1 to S12 and the derived vectors of
spec/95_test_vectors.md, the op-select codes of 30 R71, or hand arithmetic from the rules. -/

namespace Sys2Proof.Tests

open Sys2Proof.Machine

/-- The outputs after an outcome, if there is a next state. -/
def outputs : Host.Outcome State Fault Refusal → Option OutPorts
  | .next s => some s.out
  | _ => none

/-- Reset, with a presentation on the input ports. -/
def presenting (t : InPorts) : State := { State.reset with inp := t }

/-- All operand ports driven, with values no operation below expects by accident. -/
def allDriven (op : BitVec 3) : InPorts :=
  ⟨some op, some 0x01, some 0x07D0, some true, some ⟨1, 2, 3, 4, 5, 6, 7⟩, some [0x0C]⟩

/-! ### Well-formedness: each missing port is noticed -/

theorem test_wf_all_driven : ∀ op : BitVec 3, (allDriven op).wellFormed = true := by decide
theorem test_wf_no_op : { allDriven 0 with op := none }.wellFormed = false := by decide
theorem test_wf_checksum_no_span : { allDriven 0b000 with span := none }.wellFormed = false := by decide
theorem test_wf_read_no_dev : { allDriven 0b001 with dev := none }.wellFormed = false := by decide
theorem test_wf_zero_no_dev : { allDriven 0b010 with dev := none }.wellFormed = false := by decide
theorem test_wf_span_no_dev : { allDriven 0b011 with dev := none }.wellFormed = false := by decide
theorem test_wf_span_no_value : { allDriven 0b011 with value := none }.wellFormed = false := by decide
theorem test_wf_baseline_no_dev : { allDriven 0b100 with dev := none }.wellFormed = false := by decide
theorem test_wf_baseline_no_enabled : { allDriven 0b100 with enabled := none }.wellFormed = false := by decide
theorem test_wf_range_no_dev : { allDriven 0b101 with dev := none }.wellFormed = false := by decide
theorem test_wf_range_no_value : { allDriven 0b101 with value := none }.wellFormed = false := by decide
theorem test_wf_payload_no_buf : { allDriven 0b110 with buf := none }.wellFormed = false := by decide
theorem test_wf_ppm_no_buf : { allDriven 0b111 with buf := none }.wellFormed = false := by decide
/-- A port the operation does not list may be empty (10 R30). -/
theorem test_wf_unlisted_port_may_be_empty : { allDriven 0b000 with dev := none, buf := none }.wellFormed = true := by
  decide

/-! ### Decoding: the op-select codes of 30 R71, written out -/

theorem test_decode_checksum : decode (allDriven 0b000) = .ok (.checksum ⟨1, 2, 3, 4, 5, 6, 7⟩) := rfl
theorem test_decode_read_gas : decode (allDriven 0b001) = .ok (.readGasConcentration 0x01) := rfl
theorem test_decode_zero : decode (allDriven 0b010) = .ok (.calibrateZeroPoint 0x01) := rfl
theorem test_decode_span : decode (allDriven 0b011) = .ok (.calibrateSpanPoint 0x01 0x07D0) := rfl
theorem test_decode_baseline : decode (allDriven 0b100) = .ok (.setAutomaticBaselineCorrection 0x01 true) := rfl
theorem test_decode_range : decode (allDriven 0b101) = .ok (.setDetectionRange 0x01 0x07D0) := rfl
theorem test_decode_payload : decode (allDriven 0b110) = .ok (.parsePayload [0x0C]) := rfl
theorem test_decode_ppm : decode (allDriven 0b111) = .ok (.parseGasConcentrationPpm [0x0C]) := rfl
/-- Rejections name what is missing. -/
theorem test_decode_rejects_by_name :
    decode InPorts.noValue = .error .noOperation ∧
    decode { allDriven 0b101 with value := none } = .error (.operandMissing .value) ∧
    opSelectOfWord 8 = .error (.opSelectTooWide 8) := ⟨rfl, rfl, rfl⟩

/-! ### The operations: spec/95 vectors, one step each -/

/-- S2. -/
theorem test_checksum_S2 :
    outputs (step (presenting (encode (.checksum ⟨0x01, 0x88, 0x07, 0xD0, 0x00, 0x00, 0x00⟩)))) =
      some (OutPorts.onlyCsum 0xA0) := by decide
/-- Seven bytes of 0xFF: the sum wraps six times. -/
theorem test_checksum_wraps :
    outputs (step (presenting (encode (.checksum ⟨0xFF, 0xFF, 0xFF, 0xFF, 0xFF, 0xFF, 0xFF⟩)))) =
      some (OutPorts.onlyCsum 0x07) := by decide
/-- `dev = 0xFF`: the checksum's sum wraps. -/
theorem test_read_gas_wraps :
    outputs (step (presenting (encode (.readGasConcentration 0xFF)))) =
      some (OutPorts.onlyPkt ⟨0xFF, 0xFF, 0x86, 0, 0, 0, 0, 0, 0x7B⟩) := by decide
theorem test_zero_point :
    outputs (step (presenting (encode (.calibrateZeroPoint 1)))) =
      some (OutPorts.onlyPkt ⟨0xFF, 0x01, 0x87, 0, 0, 0, 0, 0, 0x78⟩) := by decide
/-- Two distinct value bytes show the byte order. -/
theorem test_span_point_byte_order :
    outputs (step (presenting (encode (.calibrateSpanPoint 0xFF 0x1234)))) =
      some (OutPorts.onlyPkt ⟨0xFF, 0xFF, 0x88, 0x12, 0x34, 0, 0, 0, 0x33⟩) := by decide
theorem test_baseline_on :
    outputs (step (presenting (encode (.setAutomaticBaselineCorrection 0xFF true)))) =
      some (OutPorts.onlyPkt ⟨0xFF, 0xFF, 0x79, 0xA0, 0, 0, 0, 0, 0xE8⟩) := by decide
theorem test_baseline_off :
    outputs (step (presenting (encode (.setAutomaticBaselineCorrection 1 false)))) =
      some (OutPorts.onlyPkt ⟨0xFF, 0x01, 0x79, 0x00, 0, 0, 0, 0, 0x86⟩) := by decide
/-- S10. -/
theorem test_range_S10 :
    outputs (step (presenting (encode (.setDetectionRange 1 0x07D0)))) =
      some (OutPorts.onlyPkt ⟨0xFF, 0x01, 0x99, 0x07, 0xD0, 0, 0, 0, 0x8F⟩) := by decide
/-- S8: the computed checksum stands first, the byte found second. -/
theorem test_payload_S8 :
    outputs (step (presenting (encode (.parsePayload [0xFF, 2, 3, 4, 5, 6, 7, 8, 9])))) =
      some (OutPorts.onlyErr (.wrongChecksum 221 9)) := by decide
/-- A valid packet plus one byte: the length is tested first. -/
theorem test_payload_one_byte_too_long :
    outputs (step (presenting (encode (.parsePayload [0xFF, 0x86, 0x02, 0x60, 0x47, 0, 0, 0, 0xD1, 0])))) =
      some (OutPorts.onlyErr (.wrongPacketLength 10)) := by decide
/-- S9. -/
theorem test_ppm_S9 :
    outputs (step (presenting (encode (.parseGasConcentrationPpm [0xFF, 0x86, 0x02, 0x60, 0x47, 0, 0, 0, 0xD1])))) =
      some (OutPorts.okPpm 608) := by decide
/-- Wrong checksum and wrong type: the checksum is reported (60 R207). -/
theorem test_ppm_checksum_beats_type :
    outputs (step (presenting (encode (.parseGasConcentrationPpm [0xFF, 0x87, 0, 0, 0, 0, 0, 0, 0])))) =
      some (OutPorts.onlyErr (.wrongChecksum 121 0)) := by decide

/-! ### The table's words, the outputs, the notation -/

/-- `read_gas_concentration(0)` is the first transaction after reset when its word is presented. -/
theorem test_withFetchWord_runs :
    outputs (step (State.reset.withFetchWord 8 0b001)) =
      some (OutPorts.onlyPkt ⟨0xFF, 0x00, 0x86, 0, 0, 0, 0, 0, 0x7A⟩) := by decide
theorem test_payload_of_no_bytes :
    outputs (step (State.reset.withFetchWord 8 0b110)) = some (OutPorts.onlyErr (.wrongPacketLength 0)) := by decide
theorem test_unproduced_read_faults : State.reset.readCsum = .error (.unproducedOutput .csum) := rfl
theorem test_err_f2_of_length_has_no_value :
    (State.reset.raise (.wrongPacketLength 8)).readErrF2 = .error (.unproducedOutput .errF2) := rfl
/-- P2's `t1[1..8]`. -/
theorem test_slice :
    slice (Packet.bytes ⟨0xFF, 0x01, 0x88, 0x07, 0xD0, 0, 0, 0, 0xA0⟩) 1 8 =
      some [0x01, 0x88, 0x07, 0xD0, 0, 0, 0] := by decide
/-- Indices that do not exist have no bytes (log entry 13). -/
theorem test_slice_past_the_end_has_no_value : slice [0x01, 0x02] 1 3 = none ∧ slice [0x01, 0x02] 2 1 = none := by decide
/-- 10 R29: with the next operation presented, the csum of the transaction before can no longer be read. -/
theorem test_presenting_takes_the_previous_csum_away :
    ((State.reset.deliver (.checksum 0xA0)).withFetchWord 8 0b001).readCsum = .error (.unproducedOutput .csum) := rfl
theorem test_text_call : (Instr.calibrateSpanPoint 1 2000).text = "calibrate_span_point(1, 2000)" := by decide
theorem test_text_bytes : (Instr.parsePayload [0xFF, 0x01]).text = "parse_payload([0xFF,0x01])" := by decide

/-! ### Witnesses: a state and operands that meet the hypotheses of each statement -/

theorem witness_StepRunsTheDecodedOperation :
    decode (allDriven 0b110) = .ok (.parsePayload [0x0C]) ∧ decode State.reset.inp = .error .noOperation := ⟨rfl, rfl⟩

/-- Rejections of each kind; with both operands missing the first one listed is named. -/
theorem witness_DecoderRejects :
    decode { allDriven 0b100 with enabled := none } = .error (.operandMissing .enabled) ∧
    decode { allDriven 0b100 with dev := none, enabled := none } = .error (.operandMissing .dev) ∧
    decode { allDriven 0b100 with op := none, dev := none } = .error .noOperation := ⟨rfl, rfl, rfl⟩

theorem witness_UnlistedInputPortsHaveNoEffect :
    (allDriven 0b001).Presents (encode (.readGasConcentration 1)) ∧
    (encode (.readGasConcentration 1)).Presents (encode (.readGasConcentration 1)) ∧
    allDriven 0b001 ≠ encode (.readGasConcentration 1) := by
  refine ⟨⟨?_, ?_, ?_, ?_, ?_, ?_⟩, ⟨?_, ?_, ?_, ?_, ?_, ?_⟩, by decide⟩ <;>
    simp [allDriven, encode, Instr.opSelect, InPorts.noValue]

theorem witness_OpSelectMap :
    (allDriven 0b000).op = some 0b000 ∧ (allDriven 0b000).span = some ⟨1, 2, 3, 4, 5, 6, 7⟩ ∧
    (allDriven 0b011).op = some 0b011 ∧ (allDriven 0b011).dev = some 0x01 ∧ (allDriven 0b011).value = some 0x07D0 ∧
    (allDriven 0b100).op = some 0b100 ∧ (allDriven 0b100).enabled = some true ∧
    (allDriven 0b111).op = some 0b111 ∧ (allDriven 0b111).buf = some [0x0C] := by decide

/-- A transaction that completes, for the statements about `step s = .next t`. -/
theorem witness_step_next : ∃ t, step (presenting (allDriven 0b001)) = .next t := ⟨_, rfl⟩

theorem witness_reset_Inv : State.reset.Inv := OutPorts.Legal.noValue

/-- Every encoder operation has request fields. -/
theorem witness_requestFields :
    requestFields (.readGasConcentration 1) = some ⟨0x01, 0x86, 0, 0⟩ ∧
    requestFields (.calibrateZeroPoint 1) = some ⟨0x01, 0x87, 0, 0⟩ ∧
    requestFields (.calibrateSpanPoint 1 0x07D0) = some ⟨0x01, 0x88, 0x07, 0xD0⟩ ∧
    requestFields (.setAutomaticBaselineCorrection 1 true) = some ⟨0x01, 0x79, 0xA0, 0⟩ ∧
    requestFields (.setDetectionRange 0x86 5000) = some ⟨0x86, 0x99, 0x13, 0x88⟩ := by decide

theorem witness_EncoderIsInjective : ∃ t p,
    exec (.readGasConcentration 1) State.reset = .next t ∧ t.out.pkt = some p := ⟨_, _, rfl, rfl⟩

/-- The clauses of `ParsePayloadFollowsItsSteps`, each at a boundary: lengths 8 and 10, start byte 0xFE, checksum off by
one, and the all-zero packet. -/
theorem witness_ParsePayload :
    (List.replicate 8 (0xFF : Byte)).length ≠ 9 ∧ (List.replicate 10 (0xFF : Byte)).length ≠ 9 ∧
    (0xFE : Byte) ≠ 0xFF ∧
    checksum ⟨0x86, 0x02, 0x60, 0x47, 0, 0, 0⟩ ≠ 0xD2 ∧ checksum ⟨0, 0, 0, 0, 0, 0, 0⟩ = 0 := by decide

theorem witness_ReservedBytes : (0xCE : Byte) = checksum ⟨0x86, 0x01, 0x00, 0x00, 0x00, 0x00, 0xAB⟩ := by decide

/-- The clauses of `ParseGasConcentrationFollowsItsSteps`: an error, another code echoed, and 0x86 echoed. -/
theorem witness_ParseGas :
    exec (.parsePayload []) State.reset =
      .next { State.reset with out := OutPorts.onlyErr (.wrongPacketLength 0) } ∧
    exec (.parsePayload [0xFF, 0x87, 0, 0, 0, 0, 0, 0, 0x79]) State.reset =
      .next { State.reset with out := OutPorts.okPayload ⟨0x87, 0, 0, 0, 0, 0, 0⟩ } ∧
    exec (.parsePayload [0xFF, 0x86, 0xFF, 0xFF, 0, 0, 0, 0, 0x7C]) State.reset =
      .next { State.reset with out := OutPorts.okPayload ⟨0x86, 0xFF, 0xFF, 0, 0, 0, 0⟩ } := ⟨rfl, rfl, rfl⟩

theorem witness_ErrorsArePropagated : ∃ t,
    exec (.parsePayload [0x12]) State.reset = .next t ∧ t.out.err = some (.wrongPacketLength 1) := ⟨_, rfl, rfl⟩

/-- Framed packets with the echoed code 0x86 and with the code next to it. -/
theorem witness_WellFramed :
    WellFramed ⟨0xFF, 0x87, 0, 0, 0, 0, 0, 0, 0x79⟩ ∧ WellFramed ⟨0xFF, 0x86, 0, 0, 0, 0, 0, 0, 0x7A⟩ := by
  refine ⟨⟨?_, ?_⟩, ⟨?_, ?_⟩⟩ <;> decide

/-- The `err` port can hold each of the four kinds. -/
theorem witness_ErrorFields :
    (State.reset.raise (.wrongPacketLength 8)).out.err = some (.wrongPacketLength 8) ∧
    (State.reset.raise (.wrongStartByte 0xFE)).out.err = some (.wrongStartByte 0xFE) ∧
    (State.reset.raise (.wrongChecksum 0 1)).out.err = some (.wrongChecksum 0 1) ∧
    (State.reset.raise (.wrongPacketType 0x86 0x87)).out.err = some (.wrongPacketType 0x86 0x87) := ⟨rfl, rfl, rfl, rfl⟩

/-- The buffer of no bytes is covered whatever `LEN_W` is, and its length is not nine. -/
theorem witness_CoveredLengths : CoveredLength [] ∧ ([] : List Byte).length ≠ 9 := by
  refine ⟨?_, by decide⟩
  exact Nat.two_pow_pos Config.lenW

/-- Two different spans that are reorderings of each other. -/
theorem witness_ChecksumPerm :
    (Bytes7.bytes ⟨1, 2, 0, 0, 0, 0, 0⟩).Perm (Bytes7.bytes ⟨2, 1, 0, 0, 0, 0, 0⟩) ∧
    (⟨1, 2, 0, 0, 0, 0, 0⟩ : Bytes7) ≠ ⟨2, 1, 0, 0, 0, 0, 0⟩ := by decide

end Sys2Proof.Tests
end

section
/-! Proofs about scope (spec 00): buffer lengths and the parameter `LEN_W`. -/

namespace Sys2Proof.Machine

/-- A buffer that is no packet fails the first test of `parsePayload`, with its exact length (60 R201). -/
theorem parsePayload_of_length_ne {buf : List Byte} (h : buf.length ≠ 9) :
    parsePayload buf = .error (.wrongPacketLength buf.length) := by
  obtain ⟨-, herr⟩ | ⟨p, rfl, -⟩ := parsePayload_cases buf
  · exact herr
  · exact absurd rfl h

/-- `parse_payload` ends with the error its parser finds. -/
theorem exec_parsePayload_of_error {buf : List Byte} {e : DecodeError} (h : parsePayload buf = .error e) (s : State) :
    exec (.parsePayload buf) s = .next (s.raise e) := by
  change answer .payload (parsePayload buf) s = _
  rw [h, answer]

/-- `parse_gas_concentration_ppm` ends with the error its parser finds. -/
theorem exec_parseGasConcentrationPpm_of_error {buf : List Byte} {e : DecodeError}
    (h : parseGasConcentrationPpm buf = .error e) (s : State) :
    exec (.parseGasConcentrationPpm buf) s = .next (s.raise e) := by
  change answer .ppm (parseGasConcentrationPpm buf) s = _
  rw [h, answer]

/-- The `err` port after an error holds that error. -/
theorem raise_out_err (s : State) (e : DecodeError) : (s.raise e).out.err = some e := rfl

/-- A `LEN_W`-bit field reads as every natural number below `2^LEN_W` (00 R9). -/
theorem lengthField_toNat {n : Nat} (h : n < 2 ^ Config.lenW) : (lengthField n).toNat = n :=
  (BitVec.toNat_ofNat n Config.lenW).trans (Nat.mod_eq_of_lt h)

/-- Settles O43: the length test comes first and carries the exact length, and `buf.length < 2 ^ LEN_W` is what keeps
the field from wrapping. -/
theorem coveredLengthsAreReportedExactly : Obligations.CoveredLengthsAreReportedExactly := by
  intro buf s hcov hlen
  have hpayload := parsePayload_of_length_ne hlen
  have hgas := parseGas_of_error hpayload
  exact ⟨s.raise _, s.raise _, buf.length, exec_parsePayload_of_error hpayload s,
    exec_parseGasConcentrationPpm_of_error hgas s, raise_out_err s _, raise_out_err s _, rfl, lengthField_toNat hcov⟩

end Sys2Proof.Machine
end

section
/-! Proofs about presentation (spec 10 section 2): the decoder reads an operation from its own ports and no other, and
names the first port that is missing. -/

namespace Sys2Proof

/-! ### The op-select map, one equation for each code (30 R71) -/

theorem decode_checksum {t : InPorts} (h : t.op = some 0b000) :
    decode t = (presented .span t.span).map .checksum := by
  rw [decode, h]; rfl

theorem decode_readGasConcentration {t : InPorts} (h : t.op = some 0b001) :
    decode t = (presented .dev t.dev).map .readGasConcentration := by
  rw [decode, h]; rfl

theorem decode_calibrateZeroPoint {t : InPorts} (h : t.op = some 0b010) :
    decode t = (presented .dev t.dev).map .calibrateZeroPoint := by
  rw [decode, h]; rfl

theorem decode_calibrateSpanPoint {t : InPorts} (h : t.op = some 0b011) :
    decode t = presented2 .calibrateSpanPoint (presented .dev t.dev) (presented .value t.value) := by
  rw [decode, h]; rfl

theorem decode_setAutomaticBaselineCorrection {t : InPorts} (h : t.op = some 0b100) :
    decode t = presented2 .setAutomaticBaselineCorrection (presented .dev t.dev) (presented .enabled t.enabled) := by
  rw [decode, h]; rfl

theorem decode_setDetectionRange {t : InPorts} (h : t.op = some 0b101) :
    decode t = presented2 .setDetectionRange (presented .dev t.dev) (presented .value t.value) := by
  rw [decode, h]; rfl

theorem decode_parsePayload {t : InPorts} (h : t.op = some 0b110) :
    decode t = (presented .buf t.buf).map .parsePayload := by
  rw [decode, h]; rfl

theorem decode_parseGasConcentrationPpm {t : InPorts} (h : t.op = some 0b111) :
    decode t = (presented .buf t.buf).map .parseGasConcentrationPpm := by
  rw [decode, h]; rfl

theorem decode_of_op_none {t : InPorts} (h : t.op = none) : decode t = .error .noOperation := by
  rw [decode, h]

/-- All eight codes are rows of the map (30 R76). -/
theorem opSelect_cases (op : BitVec 3) :
    op = 0b000 ∨ op = 0b001 ∨ op = 0b010 ∨ op = 0b011 ∨ op = 0b100 ∨ op = 0b101 ∨ op = 0b110 ∨ op = 0b111 := by
  revert op; decide

/-! ### The round trip -/

theorem map_presented_eq_ok {α : Type} {port : InPort} {v : Option α} {f : α → Instr} {i : Instr} :
    (presented port v).map f = .ok i ↔ ∃ a, v = some a ∧ f a = i := by
  cases v <;> simp [presented, Except.map]

theorem presented2_eq_ok {α β : Type} {p q : InPort} {v : Option α} {w : Option β} {f : α → β → Instr} {i : Instr} :
    presented2 f (presented p v) (presented q w) = .ok i ↔ ∃ a b, v = some a ∧ w = some b ∧ f a b = i := by
  cases v <;> cases w <;> simp [presented, presented2]

/-- `Presents`, port by port. -/
theorem InPorts.presents_iff {t u : InPorts} : t.Presents u ↔
    (∀ v, u.op = some v → t.op = some v) ∧ (∀ v, u.dev = some v → t.dev = some v) ∧
    (∀ v, u.value = some v → t.value = some v) ∧ (∀ v, u.enabled = some v → t.enabled = some v) ∧
    (∀ v, u.span = some v → t.span = some v) ∧ (∀ v, u.buf = some v → t.buf = some v) :=
  ⟨fun h => ⟨h.op, h.dev, h.value, h.enabled, h.span, h.buf⟩, fun ⟨a, b, c, d, e, f⟩ => ⟨a, b, c, d, e, f⟩⟩

/-- Ports that hold an operation's select and operands decode to it, whatever else they hold (10 R30). -/
theorem decode_of_presents {t : InPorts} {i : Instr} (h : t.Presents (encode i)) : decode t = .ok i := by
  cases i with
  | checksum span => rw [decode_checksum (h.op _ rfl), h.span _ rfl]; rfl
  | readGasConcentration dev => rw [decode_readGasConcentration (h.op _ rfl), h.dev _ rfl]; rfl
  | calibrateZeroPoint dev => rw [decode_calibrateZeroPoint (h.op _ rfl), h.dev _ rfl]; rfl
  | calibrateSpanPoint dev value =>
    rw [decode_calibrateSpanPoint (h.op _ rfl), h.dev _ rfl, h.value _ rfl]; rfl
  | setAutomaticBaselineCorrection dev enabled =>
    rw [decode_setAutomaticBaselineCorrection (h.op _ rfl), h.dev _ rfl, h.enabled _ rfl]; rfl
  | setDetectionRange dev value =>
    rw [decode_setDetectionRange (h.op _ rfl), h.dev _ rfl, h.value _ rfl]; rfl
  | parsePayload buf => rw [decode_parsePayload (h.op _ rfl), h.buf _ rfl]; rfl
  | parseGasConcentrationPpm buf => rw [decode_parseGasConcentrationPpm (h.op _ rfl), h.buf _ rfl]; rfl

/-- An operation is decoded only from ports that hold its select and its operands (10 R27). -/
theorem presents_of_decode {t : InPorts} {i : Instr} (h : decode t = .ok i) : t.Presents (encode i) := by
  rw [InPorts.presents_iff]
  cases hop : t.op with
  | none => rw [decode_of_op_none hop] at h; cases h
  | some op =>
    obtain rfl | rfl | rfl | rfl | rfl | rfl | rfl | rfl := opSelect_cases op
    · obtain ⟨span, hspan, rfl⟩ := map_presented_eq_ok.mp (decode_checksum hop ▸ h)
      simp [encode, Instr.opSelect, InPorts.noValue, hspan]
    · obtain ⟨dev, hdev, rfl⟩ := map_presented_eq_ok.mp (decode_readGasConcentration hop ▸ h)
      simp [encode, Instr.opSelect, InPorts.noValue, hdev]
    · obtain ⟨dev, hdev, rfl⟩ := map_presented_eq_ok.mp (decode_calibrateZeroPoint hop ▸ h)
      simp [encode, Instr.opSelect, InPorts.noValue, hdev]
    · obtain ⟨dev, value, hdev, hvalue, rfl⟩ := presented2_eq_ok.mp (decode_calibrateSpanPoint hop ▸ h)
      simp [encode, Instr.opSelect, InPorts.noValue, hdev, hvalue]
    · obtain ⟨dev, enabled, hdev, henabled, rfl⟩ :=
        presented2_eq_ok.mp (decode_setAutomaticBaselineCorrection hop ▸ h)
      simp [encode, Instr.opSelect, InPorts.noValue, hdev, henabled]
    · obtain ⟨dev, value, hdev, hvalue, rfl⟩ := presented2_eq_ok.mp (decode_setDetectionRange hop ▸ h)
      simp [encode, Instr.opSelect, InPorts.noValue, hdev, hvalue]
    · obtain ⟨buf, hbuf, rfl⟩ := map_presented_eq_ok.mp (decode_parsePayload hop ▸ h)
      simp [encode, Instr.opSelect, InPorts.noValue, hbuf]
    · obtain ⟨buf, hbuf, rfl⟩ := map_presented_eq_ok.mp (decode_parseGasConcentrationPpm hop ▸ h)
      simp [encode, Instr.opSelect, InPorts.noValue, hbuf]

/-- Settles O1: the operands of each operation are read back from its own ports (`decode_of_presents`), and from those
ports only (`presents_of_decode`). -/
theorem decoderReadsExactlyTheListedPorts : Obligations.DecoderReadsExactlyTheListedPorts :=
  fun _ _ => ⟨presents_of_decode, decode_of_presents⟩

/-- The encoder's own ports decode to the operation they were made from. -/
@[simp] theorem decode_encode (i : Instr) : decode (encode i) = .ok i :=
  decode_of_presents ⟨fun _ => id, fun _ => id, fun _ => id, fun _ => id, fun _ => id, fun _ => id⟩

/-! ### Rejections name the first missing port -/

/-- The first of the given ports that holds no value. -/
def InPorts.firstMissing (t : InPorts) (ports : List InPort) : Option InPort :=
  ports.find? (fun p => !t.drives p)

/-- `d` is what a decoder answers that reads the given ports of `t` in order. -/
def InPorts.ReadInOrder (t : InPorts) (ports : List InPort) (d : Except Reject Instr) : Prop :=
  match t.firstMissing ports with
  | none   => ∃ i, d = .ok i
  | some p => d = .error (.operandMissing p)

theorem InPorts.readInOrder_map_presented {t : InPorts} {p : InPort} {α : Type} {v : Option α} (f : α → Instr)
    (hp : t.drives p = v.isSome) : t.ReadInOrder [p] ((presented p v).map f) := by
  cases v with
  | none => simp [ReadInOrder, firstMissing, hp, presented, Except.map]
  | some a => simp [ReadInOrder, firstMissing, hp, presented, Except.map]

theorem InPorts.readInOrder_presented2 {t : InPorts} {p q : InPort} {α β : Type} {v : Option α} {w : Option β}
    (f : α → β → Instr) (hp : t.drives p = v.isSome) (hq : t.drives q = w.isSome) :
    t.ReadInOrder [p, q] (presented2 f (presented p v) (presented q w)) := by
  cases v with
  | none => simp [ReadInOrder, firstMissing, hp, presented, presented2]
  | some a =>
    cases w with
    | none => simp [ReadInOrder, firstMissing, hp, hq, presented, presented2]
    | some b => simp [ReadInOrder, firstMissing, hp, hq, presented, presented2]

/-- With an operation selected, the decoder reads that operation's operand ports in the order of its signature. -/
theorem decode_readInOrder {t : InPorts} {op : BitVec 3} (hop : t.op = some op) :
    t.ReadInOrder (operandPorts op) (decode t) := by
  obtain rfl | rfl | rfl | rfl | rfl | rfl | rfl | rfl := opSelect_cases op
  · rw [decode_checksum hop]; exact InPorts.readInOrder_map_presented _ rfl
  · rw [decode_readGasConcentration hop]; exact InPorts.readInOrder_map_presented _ rfl
  · rw [decode_calibrateZeroPoint hop]; exact InPorts.readInOrder_map_presented _ rfl
  · rw [decode_calibrateSpanPoint hop]; exact InPorts.readInOrder_presented2 _ rfl rfl
  · rw [decode_setAutomaticBaselineCorrection hop]; exact InPorts.readInOrder_presented2 _ rfl rfl
  · rw [decode_setDetectionRange hop]; exact InPorts.readInOrder_presented2 _ rfl rfl
  · rw [decode_parsePayload hop]; exact InPorts.readInOrder_map_presented _ rfl
  · rw [decode_parseGasConcentrationPpm hop]; exact InPorts.readInOrder_map_presented _ rfl

/-- Every way the decoder can end, with the condition of each. -/
theorem decode_cases (t : InPorts) :
    (t.op = none ∧ decode t = .error .noOperation) ∨
    ∃ op, t.op = some op ∧
      ((t.firstMissing (operandPorts op) = none ∧ ∃ i, decode t = .ok i) ∨
       ∃ p, t.firstMissing (operandPorts op) = some p ∧ decode t = .error (.operandMissing p)) := by
  cases hop : t.op with
  | none => exact .inl ⟨rfl, decode_of_op_none hop⟩
  | some op =>
    have hread := decode_readInOrder hop
    unfold InPorts.ReadInOrder at hread
    split at hread
    next hm => exact .inr ⟨op, rfl, .inl ⟨hm, hread⟩⟩
    next p hm => exact .inr ⟨op, rfl, .inr ⟨p, hm, hread⟩⟩

/-- Ports with an operation selected present it exactly when no operand port is missing. -/
theorem InPorts.wellFormed_iff_firstMissing {t : InPorts} {op : BitVec 3} (hop : t.op = some op) :
    t.wellFormed = true ↔ t.firstMissing (operandPorts op) = none := by
  simp [wellFormed, hop, firstMissing]

theorem InPorts.wellFormed_of_op_none {t : InPorts} (hop : t.op = none) : t.wellFormed = false := by
  rw [wellFormed, hop]

theorem decode_ok_iff_wellFormed (t : InPorts) : (∃ i, decode t = .ok i) ↔ t.wellFormed = true := by
  obtain ⟨hop, hd⟩ | ⟨op, hop, ⟨hm, hd⟩ | ⟨p, hm, hd⟩⟩ := decode_cases t
  · simp [hd, InPorts.wellFormed_of_op_none hop]
  · exact iff_of_true hd ((InPorts.wellFormed_iff_firstMissing hop).mpr hm)
  · simp [hd, InPorts.wellFormed_iff_firstMissing hop, hm]

theorem decode_eq_noOperation_iff (t : InPorts) : decode t = .error .noOperation ↔ t.op = none := by
  obtain ⟨hop, hd⟩ | ⟨op, hop, ⟨-, i, hd⟩ | ⟨p, -, hd⟩⟩ := decode_cases t
  · exact iff_of_true hd hop
  · simp [hd, hop]
  · simp [hd, hop]

theorem decode_eq_error_iff (t : InPorts) (why : Reject) : decode t = .error why ↔
    (t.op = none ∧ why = .noOperation) ∨
    ∃ op p, t.op = some op ∧ t.firstMissing (operandPorts op) = some p ∧ why = .operandMissing p := by
  obtain ⟨hop, hd⟩ | ⟨op, hop, ⟨hm, i, hd⟩ | ⟨p, hm, hd⟩⟩ := decode_cases t
  · simp [hd, hop, eq_comm]
  · simp [hd, hop, hm]
  · simp [hd, hop, hm, eq_comm]

/-- Settles O3: each of the three ends of `decode_cases` has its own condition, and the conditions exclude each other. -/
theorem decoderRejectsExactlyIncompletePresentations : Obligations.DecoderRejectsExactlyIncompletePresentations :=
  ⟨decode_ok_iff_wellFormed, decode_eq_noOperation_iff, decode_eq_error_iff⟩

end Sys2Proof
end

section
/-! Proofs about the interface (spec 10 section 2): each operation has one result, of a kind it lists and in range, which
depends on nothing but the operation and its operands. -/

namespace Sys2Proof.Machine

/-! ### Values in range -/

theorem concentration_toNat_le (p : Bytes7) : (concentration p).toNat ≤ 65535 := by
  have h1 := p.s1.isLt
  have h2 := p.s2.isLt
  rw [concentration, BitVec.toNat_ofNat]
  omega

theorem build_wellFramed (code dev b3 b4 : Byte) : WellFramed (build code dev b3 b4) := ⟨rfl, rfl⟩

theorem parsePayload_error_inRange {buf : List Byte} {e : DecodeError} (h : parsePayload buf = .error e) :
    e.InRange := by
  obtain ⟨hlen, hd⟩ | ⟨p, -, ⟨h0, hd⟩ | ⟨-, hc, hd⟩ | ⟨-, -, hd⟩⟩ := parsePayload_cases buf <;> rw [hd] at h <;> cases h
  · exact hlen
  · exact h0
  · exact hc

/-- Every way `parseGasConcentrationPpm` can end, with the condition of each (42 R152, R153). -/
theorem parseGas_cases (buf : List Byte) :
    (∃ e, parsePayload buf = .error e ∧ parseGasConcentrationPpm buf = .error e) ∨
    ∃ p, parsePayload buf = .ok p ∧
      ((p.s0 ≠ 0x86 ∧ parseGasConcentrationPpm buf = .error (.wrongPacketType 0x86 p.s0)) ∨
       (p.s0 = 0x86 ∧ parseGasConcentrationPpm buf = .ok (concentration p))) := by
  cases hp : parsePayload buf with
  | error e => exact .inl ⟨e, rfl, parseGas_of_error hp⟩
  | ok p =>
    refine .inr ⟨p, rfl, ?_⟩
    rw [parseGas_of_ok hp]
    by_cases h0 : p.s0 = 0x86
    · exact .inr ⟨h0, if_neg (not_not_intro h0)⟩
    · exact .inl ⟨h0, if_pos h0⟩

theorem parseGas_error_inRange {buf : List Byte} {e : DecodeError} (h : parseGasConcentrationPpm buf = .error e) :
    e.InRange := by
  obtain ⟨e', hp, hd⟩ | ⟨p, -, ⟨h0, hd⟩ | ⟨-, hd⟩⟩ := parseGas_cases buf <;> rw [hd] at h <;> cases h
  · exact parsePayload_error_inRange hp
  · exact ⟨rfl, h0⟩

theorem parseGas_ok_le {buf : List Byte} {v : Word32} (h : parseGasConcentrationPpm buf = .ok v) :
    v.toNat ≤ 65535 := by
  obtain ⟨e, -, hd⟩ | ⟨p, -, ⟨-, hd⟩ | ⟨-, hd⟩⟩ := parseGas_cases buf <;> rw [hd] at h <;> cases h
  exact concentration_toNat_le p

/-! ### Results -/

/-- The value a result carries is in the range the spec gives it (41 R127, 42 R158). -/
def Result.InRange : Result → Prop
  | .packet p   => WellFramed p
  | .checksum _ => True
  | .payload _  => True
  | .ppm v      => v.toNat ≤ 65535
  | .error e    => e.InRange

theorem Result.ports_legal {r : Result} (h : r.InRange) : r.ports.Legal := by
  cases r with
  | packet p => exact .pkt p h
  | checksum c => exact .csum c
  | payload p => exact .payload p
  | ppm v => exact .ppm v h
  | error e => exact .err e h

/-- A result is always on some port. -/
theorem Result.ports_ne_noValue (r : Result) : r.ports ≠ OutPorts.noValue := by
  cases r <;> simp [Result.ports, OutPorts.noValue]

/-- The kinds of result 10 R28 lists for an operation. -/
def Result.ListedFor (r : Result) (i : Instr) : Prop :=
  match i with
  | .checksum _ => ∃ c, r = .checksum c
  | .readGasConcentration _ | .calibrateZeroPoint _ | .calibrateSpanPoint _ _
  | .setAutomaticBaselineCorrection _ _ | .setDetectionRange _ _ => ∃ p, r = .packet p
  | .parsePayload _ => (∃ p, r = .payload p) ∨ ∃ e, r = .error e
  | .parseGasConcentrationPpm _ => (∃ v, r = .ppm v) ∨ ∃ e, r = .error e

/-- `parse_payload` ends with the payload its parser finds. -/
theorem exec_parsePayload_of_ok {buf : List Byte} {p : Bytes7} (h : parsePayload buf = .ok p) (s : State) :
    exec (.parsePayload buf) s = .next (s.deliver (.payload p)) := by
  change answer .payload (parsePayload buf) s = _
  rw [h, answer]

/-- `parse_gas_concentration_ppm` ends with the concentration its parser finds. -/
theorem exec_parseGasConcentrationPpm_of_ok {buf : List Byte} {v : Word32} (h : parseGasConcentrationPpm buf = .ok v)
    (s : State) : exec (.parseGasConcentrationPpm buf) s = .next (s.deliver (.ppm v)) := by
  change answer .ppm (parseGasConcentrationPpm buf) s = _
  rw [h, answer]

/-- What an operation does, whatever the state: it delivers one result, which it lists and which is in range. -/
theorem exec_result (i : Instr) :
    ∃ r : Result, r.ListedFor i ∧ r.InRange ∧ ∀ s, exec i s = .next (s.deliver r) := by
  cases i with
  | checksum span => exact ⟨_, ⟨_, rfl⟩, trivial, fun _ => rfl⟩
  | readGasConcentration dev => exact ⟨_, ⟨_, rfl⟩, build_wellFramed _ _ _ _, fun _ => rfl⟩
  | calibrateZeroPoint dev => exact ⟨_, ⟨_, rfl⟩, build_wellFramed _ _ _ _, fun _ => rfl⟩
  | calibrateSpanPoint dev value => exact ⟨_, ⟨_, rfl⟩, build_wellFramed _ _ _ _, fun _ => rfl⟩
  | setAutomaticBaselineCorrection dev enabled => exact ⟨_, ⟨_, rfl⟩, build_wellFramed _ _ _ _, fun _ => rfl⟩
  | setDetectionRange dev value => exact ⟨_, ⟨_, rfl⟩, build_wellFramed _ _ _ _, fun _ => rfl⟩
  | parsePayload buf =>
    cases hp : parsePayload buf with
    | ok p => exact ⟨.payload p, .inl ⟨p, rfl⟩, trivial, exec_parsePayload_of_ok hp⟩
    | error e => exact ⟨.error e, .inr ⟨e, rfl⟩, parsePayload_error_inRange hp, exec_parsePayload_of_error hp⟩
  | parseGasConcentrationPpm buf =>
    cases hp : parseGasConcentrationPpm buf with
    | ok v => exact ⟨.ppm v, .inl ⟨v, rfl⟩, parseGas_ok_le hp, exec_parseGasConcentrationPpm_of_ok hp⟩
    | error e =>
      exact ⟨.error e, .inr ⟨e, rfl⟩, parseGas_error_inRange hp, exec_parseGasConcentrationPpm_of_error hp⟩

/-- Settles O9: the ports of each kind of result an operation lists are the outputs listed for it, and `ppm` is in
range. -/
theorem outputsAreExactlyThoseListed : Obligations.OutputsAreExactlyThoseListed := by
  intro i s
  obtain ⟨r, hlisted, hrange, hexec⟩ := exec_result i
  refine ⟨_, hexec s, rfl, rfl, ?_⟩
  cases i with
  | checksum span => obtain ⟨c, rfl⟩ := hlisted; exact ⟨c, rfl⟩
  | parsePayload buf =>
    obtain ⟨p, rfl⟩ | ⟨e, rfl⟩ := hlisted
    · exact .inl ⟨p, rfl⟩
    · exact .inr ⟨e, rfl⟩
  | parseGasConcentrationPpm buf =>
    obtain ⟨v, rfl⟩ | ⟨e, rfl⟩ := hlisted
    · exact .inl ⟨v, hrange, rfl⟩
    · exact .inr ⟨e, rfl⟩
  | _ => obtain ⟨p, rfl⟩ := hlisted; exact ⟨p, rfl⟩

/-- Settles O10: `deliver` replaces every output port, so a port that is not among those of the delivered result reads
as a fault. -/
theorem unproducedOutputsFaultWhenRead : Obligations.UnproducedOutputsFaultWhenRead := by
  intro i s
  obtain ⟨r, hlisted, -, hexec⟩ := exec_result i
  refine ⟨_, hexec s, ?_⟩
  cases i with
  | checksum span => obtain ⟨c, rfl⟩ := hlisted; exact ⟨rfl, rfl, rfl, rfl, rfl⟩
  | parsePayload buf =>
    obtain ⟨p, rfl⟩ | ⟨e, rfl⟩ := hlisted
    · exact ⟨rfl, rfl, rfl, .inl ⟨rfl, rfl⟩⟩
    · exact ⟨rfl, rfl, rfl, .inr ⟨rfl, rfl⟩⟩
  | parseGasConcentrationPpm buf =>
    obtain ⟨v, rfl⟩ | ⟨e, rfl⟩ := hlisted
    · exact ⟨rfl, rfl, rfl, .inl ⟨rfl, rfl⟩⟩
    · exact ⟨rfl, rfl, rfl, .inr ⟨rfl, rfl⟩⟩
  | _ => obtain ⟨p, rfl⟩ := hlisted; exact ⟨rfl, rfl, rfl, rfl, rfl⟩

/-! ### Steps and transactions -/

theorem step_of_decode {s : State} {i : Instr} (h : decode s.inp = .ok i) : step s = exec i s := by
  rw [step, h]

/-- Settles O7: both presentations decode to the same operation, whose result does not depend on the state. -/
theorem unlistedInputPortsHaveNoEffect : Obligations.UnlistedInputPortsHaveNoEffect := by
  intro i s u hs hu
  obtain ⟨r, -, -, hexec⟩ := exec_result i
  exact ⟨s.deliver r, u.deliver r, (step_of_decode (decode_of_presents hs)).trans (hexec s),
    (step_of_decode (decode_of_presents hu)).trans (hexec u), rfl⟩

/-- A step delivers one result, in range. -/
theorem step_delivers_inRange {s t : State} (h : step s = .next t) : ∃ r : Result, r.InRange ∧ t = s.deliver r := by
  obtain ⟨i, -, -, hexec, -⟩ := step_cases h
  obtain ⟨r, -, hrange, hr⟩ := exec_result i
  exact ⟨r, hrange, Host.Outcome.next.inj (hexec.symm.trans (hr s))⟩

theorem step_inv {s t : State} (h : step s = .next t) : t.Inv := by
  obtain ⟨r, hrange, rfl⟩ := step_delivers_inRange h
  exact Result.ports_legal hrange

/-- A presented transaction delivers the operation's one result, whatever the state. -/
theorem transact_result (i : Instr) : ∃ r : Result, ∀ s, transact i s = .next ((s.present i).deliver r) := by
  obtain ⟨r, -, -, hexec⟩ := exec_result i
  exact ⟨r, fun s => (step_of_decode (decode_encode i)).trans (hexec (s.present i))⟩

theorem transactAll_cons {i : Instr} {s t : State} (h : transact i s = .next t) (is : List Instr) :
    transactAll (i :: is) s = transactAll is t := by
  rw [transactAll, h]

/-- Every sequence of transactions completes, and keeps what each transaction keeps. -/
theorem transactAll_completes {P : State → Prop} (hP : ∀ i s t, P s → transact i s = .next t → P t) (is : List Instr) :
    ∀ s, P s → ∃ t, transactAll is s = .next t ∧ P t := by
  induction is with
  | nil => exact fun s hs => ⟨s, rfl, hs⟩
  | cons i is ih =>
    intro s hs
    obtain ⟨r, hr⟩ := transact_result i
    rw [transactAll_cons (hr s)]
    exact ih _ (hP i s _ hs (hr s))

/-- Settles O12: a step delivers a result in range, and its ports are legal and not empty; a sequence of transactions is
a sequence of such steps. -/
theorem everyStepLeavesLegalOutputs : Obligations.EveryStepLeavesLegalOutputs := by
  refine ⟨fun s t h => ⟨step_inv h, ?_⟩, transactAll_completes fun _ _ _ _ h => step_inv h⟩
  obtain ⟨r, -, rfl⟩ := step_delivers_inRange h
  exact r.ports_ne_noValue

/-- Settles O14: the operation has one result, which both of its transactions deliver. -/
theorem identicalTransactionsGiveIdenticalResults : Obligations.IdenticalTransactionsGiveIdenticalResults := by
  intro i between s
  obtain ⟨r, hr⟩ := transact_result i
  obtain ⟨u, hu, -⟩ := transactAll_completes (P := fun _ => True) (fun _ _ _ _ _ => trivial) between
    ((s.present i).deliver r) trivial
  exact ⟨_, u, _, hr s, hu, hr u, rfl⟩

end Sys2Proof.Machine
end

section
/-! Proofs about repeating and ordering transactions (spec 20 sections 1, 3 and 4): an operation has one result, and
delivering it replaces the outputs and touches nothing else, so neither a repetition nor the order shows. -/

namespace Sys2Proof.Machine

/-! ### One step -/

theorem step_of_decode_error {s : State} {why : Reject} (h : decode s.inp = .error why) :
    step s = .refused (.noTransaction why) := by
  rw [step, h]

/-- Settles O5: the two ends of the decoder, one clause each. -/
theorem stepRunsTheDecodedOperation : Obligations.StepRunsTheDecodedOperation :=
  ⟨fun _ _ => step_of_decode, fun _ _ => step_of_decode_error⟩

/-! ### Repetition -/

/-- An operation performed again, in the state it left, leaves that state (20 R51). -/
theorem exec_idempotent {i : Instr} {s t : State} (h : exec i s = .next t) : exec i t = .next t := by
  obtain ⟨r, -, -, hexec⟩ := exec_result i
  obtain rfl : s.deliver r = t := Host.Outcome.next.inj ((hexec s).symm.trans h)
  rw [hexec, deliver_deliver]

/-- Settles O16: a step leaves the input ports, so the second step decodes the same operation, which is idempotent. -/
theorem performingATransactionTwiceChangesNothing : Obligations.PerformingATransactionTwiceChangesNothing := by
  intro s t h
  obtain ⟨i, r, hd, hexec, ht⟩ := step_cases h
  have hinp : t.inp = s.inp := by rw [ht, deliver_inp]
  have hdt : decode t.inp = .ok i := by rw [hinp, hd]
  exact ⟨by rw [ht, deliver_block], hinp, (step_of_decode hdt).trans (exec_idempotent hexec)⟩

/-- Presenting an operation again, after its transaction, gives the presentation it ran from. -/
theorem present_deliver_present (s : State) (i : Instr) (r : Result) :
    ((s.present i).deliver r).present i = s.present i := rfl

/-- Settles O44: `deliver` changes the outputs only and `exec` is idempotent; a second presentation restores the state
the first transaction ran from. -/
theorem presentingATransactionTwiceGivesTheSameResult : Obligations.PresentingATransactionTwiceGivesTheSameResult := by
  constructor
  · intro i s
    obtain ⟨r, hexec⟩ := exec_delivers i s
    exact ⟨s.deliver r, hexec, deliver_block s r, congrArg InPorts.buf (deliver_inp s r),
      congrArg InPorts.span (deliver_inp s r), exec_idempotent hexec⟩
  · intro i s
    obtain ⟨r, hr⟩ := transact_result i
    refine ⟨(s.present i).deliver r, hr s, ?_⟩
    rw [hr, present_deliver_present]

/-! ### Order -/

/-- Settles O17: each operation has one result (`transact_result`), which it delivers first or second alike. -/
theorem twoCallersSeeTheSameResultsInEitherOrder : Obligations.TwoCallersSeeTheSameResultsInEitherOrder := by
  intro i j s
  obtain ⟨ri, hi⟩ := transact_result i
  obtain ⟨rj, hj⟩ := transact_result j
  refine ⟨_, _, _, _, hi s, hj _, hj s, hi _, ?_, ?_⟩
  · rw [deliver_out, deliver_out]
  · rw [deliver_out, deliver_out]

end Sys2Proof.Machine
end

section
/-! Proofs about encoding (spec 30): the op-select map, the bits of a packet, the fields of a request, the command-code
table and the buffers the decoder accepts. -/

namespace Sys2Proof

/-! ### The op-select map (30 R71, R76) -/

theorem encode_op (i : Instr) : (encode i).op = some i.opSelect := by
  cases i <;> rfl

/-- Ports that decode to an operation hold its select. -/
theorem op_of_decode {t : InPorts} {i : Instr} (h : decode t = .ok i) : t.op = some i.opSelect :=
  (presents_of_decode h).op _ (encode_op i)

/-- With an operation selected and every operand port driven, a transaction is presented (10 R27). -/
theorem InPorts.wellFormed_of_drives {t : InPorts} {op : BitVec 3} (hop : t.op = some op)
    (hall : ∀ p, t.drives p = true) : t.wellFormed = true := by
  rw [wellFormed, hop]
  exact List.all_eq_true.mpr fun p _ => hall p

/-- Settles O2: each code has its row of the map, and driven ports decode to an operation that has their select. -/
theorem opSelectMapAssignsAllEightCodes : Obligations.OpSelectMapAssignsAllEightCodes := by
  refine ⟨?_, ?_, ?_, ?_, ?_, ?_, ?_, ?_, ?_⟩
  · exact fun t span hop hspan => (decode_checksum hop).trans (map_presented_eq_ok.mpr ⟨span, hspan, rfl⟩)
  · exact fun t dev hop hdev => (decode_readGasConcentration hop).trans (map_presented_eq_ok.mpr ⟨dev, hdev, rfl⟩)
  · exact fun t dev hop hdev => (decode_calibrateZeroPoint hop).trans (map_presented_eq_ok.mpr ⟨dev, hdev, rfl⟩)
  · exact fun t dev value hop hdev hvalue =>
      (decode_calibrateSpanPoint hop).trans (presented2_eq_ok.mpr ⟨dev, value, hdev, hvalue, rfl⟩)
  · exact fun t dev enabled hop hdev henabled =>
      (decode_setAutomaticBaselineCorrection hop).trans (presented2_eq_ok.mpr ⟨dev, enabled, hdev, henabled, rfl⟩)
  · exact fun t dev value hop hdev hvalue =>
      (decode_setDetectionRange hop).trans (presented2_eq_ok.mpr ⟨dev, value, hdev, hvalue, rfl⟩)
  · exact fun t buf hop hbuf => (decode_parsePayload hop).trans (map_presented_eq_ok.mpr ⟨buf, hbuf, rfl⟩)
  · exact fun t buf hop hbuf => (decode_parseGasConcentrationPpm hop).trans (map_presented_eq_ok.mpr ⟨buf, hbuf, rfl⟩)
  · intro op dev value enabled span buf
    obtain ⟨i, hi⟩ := (decode_ok_iff_wellFormed ⟨some op, some dev, some value, some enabled, some span, some buf⟩).mpr
      (InPorts.wellFormed_of_drives rfl fun p => by cases p <;> rfl)
    exact ⟨i, hi, (Option.some.inj (op_of_decode hi)).symm⟩

theorem decodeTableWord_of_decode {nbits w : Nat} {i : Instr} (h : decode (tableWordPorts nbits w) = .ok i) :
    decodeTableWord nbits w = some i := by
  rw [decodeTableWord, h]; rfl

theorem decodeTableWord_of_op_none {nbits w : Nat} (h : (tableWordPorts nbits w).op = none) :
    decodeTableWord nbits w = none := by
  rw [decodeTableWord, decode_of_op_none h]; rfl

/-- Settles O4: each word drives its select and zeros on every operand port, so its row of the op-select map (O2)
applies; the wide word drives no select. -/
theorem tableWordsDecodeToTheirOperations : Obligations.TableWordsDecodeToTheirOperations := by
  obtain ⟨checksum, readGas, zeroPoint, spanPoint, baseline, range, payload, ppm, -⟩ := opSelectMapAssignsAllEightCodes
  exact ⟨decodeTableWord_of_decode (checksum _ _ rfl rfl), decodeTableWord_of_decode (readGas _ _ rfl rfl),
    decodeTableWord_of_decode (zeroPoint _ _ rfl rfl), decodeTableWord_of_decode (spanPoint _ _ _ rfl rfl rfl),
    decodeTableWord_of_decode (baseline _ _ _ rfl rfl rfl), decodeTableWord_of_decode (range _ _ _ rfl rfl rfl),
    decodeTableWord_of_decode (payload _ _ rfl rfl), decodeTableWord_of_decode (ppm _ _ rfl rfl),
    decodeTableWord_of_op_none rfl⟩

/-! ### The bits of a packet (30 R60) -/

/-- Above its lowest byte a string continues with the bytes before it. -/
theorem extractLsb'_append_byte {w : Nat} (x : BitVec w) (b : Byte) (n : Nat) :
    (x ++ b).extractLsb' (n + 8) 8 = x.extractLsb' n 8 := by
  rw [BitVec.extractLsb'_append_eq_of_le (Nat.le_add_left 8 n), Nat.add_sub_cancel]

/-- The eight bits of `P[71:0]` from bit 64-8i are byte i: the 8-i bytes after it are passed over one by one. -/
theorem Packet.extractLsb'_bits (p : Packet) (i : Fin 9) : p.bits.extractLsb' (64 - 8 * i) 8 = p.bytes.get i := by
  change (p.b0 ++ p.b1 ++ p.b2 ++ p.b3 ++ p.b4 ++ p.b5 ++ p.b6 ++ p.b7 ++ p.b8 :
    BitVec (8 + 8 + 8 + 8 + 8 + 8 + 8 + 8 + 8)).extractLsb' _ 8 = _
  fin_cases i
  on_goal 9 => exact BitVec.extractLsb'_append_eq_right
  all_goals
    simp only [extractLsb'_append_byte, BitVec.extractLsb'_append_eq_right, BitVec.extractLsb'_eq_self]
    rfl

/-- Settles O8: byte i is a field of the string, and bit 71-8i is that field's bit 7. -/
theorem packetBytesStandAtTheirBits : Obligations.PacketBytesStandAtTheirBits := by
  intro p i
  have hbit : 71 - 8 * (i : Nat) = 64 - 8 * i + 7 := by omega
  refine ⟨p.extractLsb'_bits i, ?_⟩
  rw [← p.extractLsb'_bits i, BitVec.getLsbD_extractLsb', hbit]
  rfl

namespace Machine

/-! ### Requests: the packet of every encoder operation (30 R61, R64, R66, R67, R73) -/

/-- The request packet with the given fields. -/
def RequestFields.packet (f : RequestFields) : Packet := build f.code f.dev f.b3 f.b4

/-- An encoder operation produces the packet of its request fields, and nothing else. -/
theorem exec_of_requestFields {i : Instr} {f : RequestFields} (h : requestFields i = some f) (s : State) :
    exec i s = .next { s with out := OutPorts.onlyPkt f.packet } := by
  cases i with
  | checksum span => cases h
  | readGasConcentration dev => cases h; rfl
  | calibrateZeroPoint dev => cases h; rfl
  | calibrateSpanPoint dev value =>
    cases h
    rw [RequestFields.packet, ← valueHigh_eq, ← valueLow_eq]; rfl
  | setAutomaticBaselineCorrection dev enabled => cases h; rfl
  | setDetectionRange dev value =>
    cases h
    rw [RequestFields.packet, ← valueHigh_eq, ← valueLow_eq]; rfl
  | parsePayload buf => cases h
  | parseGasConcentrationPpm buf => cases h

/-- Only the encoder operations produce a packet, each the one of its request fields. -/
theorem exec_pkt_eq_some {i : Instr} {s t : State} {p : Packet} (hexec : exec i s = .next t)
    (hp : t.out.pkt = some p) : ∃ f, requestFields i = some f ∧ p = f.packet := by
  cases hf : requestFields i with
  | some f =>
    rw [exec_of_requestFields hf] at hexec
    cases hexec
    exact ⟨f, rfl, (Option.some.inj hp).symm⟩
  | none =>
    obtain ⟨r, hlisted, -, hr⟩ := exec_result i
    obtain rfl : s.deliver r = t := Host.Outcome.next.inj ((hr s).symm.trans hexec)
    cases i with
    | checksum span => obtain ⟨c, rfl⟩ := hlisted; cases hp
    | parsePayload buf => obtain ⟨q, rfl⟩ | ⟨e, rfl⟩ := hlisted <;> cases hp
    | parseGasConcentrationPpm buf => obtain ⟨v, rfl⟩ | ⟨e, rfl⟩ := hlisted <;> cases hp
    | _ => cases hf

/-- `value[15:8]` as `(value >> 8) & 0xFF` in natural numbers (20 R44). -/
theorem extractLsb'_high_toNat (value : Half) : (value.extractLsb' 8 8).toNat = (value.toNat >>> 8) &&& 0xFF :=
  (BitVec.extractLsb'_toNat 8 8 value).trans (Nat.and_two_pow_sub_one_eq_mod _ 8).symm

/-- `value[7:0]` as `value & 0xFF` in natural numbers. -/
theorem extractLsb'_low_toNat (value : Half) : (value.extractLsb' 0 8).toNat = value.toNat &&& 0xFF :=
  (BitVec.extractLsb'_toNat 0 8 value).trans (Nat.and_two_pow_sub_one_eq_mod _ 8).symm

/-- Settles O27: bytes 3 and 4 of both packets are the request fields `value[15:8]` and `value[7:0]`. -/
theorem sixteenBitParametersAreBigEndian : Obligations.SixteenBitParametersAreBigEndian := by
  intro dev value s
  have hspan := exec_of_requestFields (i := .calibrateSpanPoint dev value) rfl s
  have hrange := exec_of_requestFields (i := .setDetectionRange dev value) rfl s
  exact ⟨_, _, hspan, hrange, extractLsb'_high_toNat value, extractLsb'_low_toNat value, rfl, rfl, rfl, rfl⟩

/-! ### The command-code table and its partial inverse (30 R64, R65) -/

theorem Command.mem_all (c : Command) : c ∈ Command.all := by
  cases c <;> decide

theorem Command.ofCode_code (c : Command) : Command.ofCode c.code = some c := by
  cases c <;> rfl

theorem Command.ofCode_eq_some {b : Byte} {c : Command} : Command.ofCode b = some c ↔ c.code = b := by
  constructor
  · exact fun h => eq_of_beq (List.find?_some (p := fun c : Command => c.code == b) h)
  · rintro rfl; exact ofCode_code c

/-- Distinct commands have distinct codes: the partial inverse tells them apart. -/
theorem Command.code_injective : Function.Injective Command.code := by
  intro c d h
  rw [← Option.some_inj, ← ofCode_code c, h, ofCode_code d]

/-- The five codes, in the order of 30 R64. -/
theorem Command.exists_code_eq {b : Byte} : (∃ c : Command, c.code = b) ↔ b ∈ [0x86, 0x87, 0x88, 0x79, 0x99] := by
  change _ ↔ b ∈ Command.all.map Command.code
  simp [Command.mem_all]

theorem Command.ofCode_isSome {b : Byte} :
    (Command.ofCode b).isSome = true ↔ b ∈ [0x86, 0x87, 0x88, 0x79, 0x99] := by
  simp only [Option.isSome_iff_exists, ofCode_eq_some, exists_code_eq]

/-- Every request carries the code of a command. -/
theorem requestFields_code {i : Instr} {f : RequestFields} (h : requestFields i = some f) :
    ∃ c : Command, c.code = f.code := by
  cases i with
  | checksum span => cases h
  | readGasConcentration dev => cases h; exact ⟨.readGasConcentration, rfl⟩
  | calibrateZeroPoint dev => cases h; exact ⟨.calibrateZero, rfl⟩
  | calibrateSpanPoint dev value => cases h; exact ⟨.calibrateSpan, rfl⟩
  | setAutomaticBaselineCorrection dev enabled => cases h; exact ⟨.setAutomaticBaselineCorrection, rfl⟩
  | setDetectionRange dev value => cases h; exact ⟨.setSensorDetectionRange, rfl⟩
  | parsePayload buf => cases h
  | parseGasConcentrationPpm buf => cases h

/-! ### The buffers the decoder accepts (30 R62, R68, R72 to R74) -/

/-- The buffers `parse_payload` accepts are those of the well-framed packets, and the payload is the packet's own. -/
theorem parsePayload_eq_ok {buf : List Byte} {q : Bytes7} :
    parsePayload buf = .ok q ↔ ∃ p : Packet, WellFramed p ∧ buf = p.bytes ∧ q = p.payload := by
  constructor
  · intro h
    obtain ⟨-, hd⟩ | ⟨p, hbuf, ⟨-, hd⟩ | ⟨-, -, hd⟩ | ⟨h0, hc, hd⟩⟩ := parsePayload_cases buf <;>
      rw [hd] at h <;> cases h
    exact ⟨p, ⟨h0, hc.symm⟩, hbuf, rfl⟩
  · rintro ⟨p, ⟨h0, hc⟩, rfl, rfl⟩
    simp [parsePayload, Packet.ofBytes_bytes, startByte, h0, hc]

theorem parsePayload_bytes_of_wellFramed {p : Packet} (h : WellFramed p) : parsePayload p.bytes = .ok p.payload :=
  parsePayload_eq_ok.mpr ⟨p, h, rfl, rfl⟩

theorem parseGas_bytes_of_gasCode {p : Packet} (h : WellFramed p) (h1 : p.b1 = 0x86) :
    parseGasConcentrationPpm p.bytes = .ok (concentration p.payload) :=
  (parseGas_of_ok (parsePayload_bytes_of_wellFramed h)).trans (if_neg (not_not_intro h1))

theorem parseGas_bytes_of_ne_gasCode {p : Packet} (h : WellFramed p) (h1 : p.b1 ≠ 0x86) :
    parseGasConcentrationPpm p.bytes = .error (.wrongPacketType 0x86 p.b1) :=
  (parseGas_of_ok (parsePayload_bytes_of_wellFramed h)).trans (if_pos h1)

/-- The buffers `parse_gas_concentration_ppm` accepts: the well-framed packets that echo 0x86 at byte 1. -/
theorem parseGas_eq_ok {buf : List Byte} {v : Word32} :
    parseGasConcentrationPpm buf = .ok v ↔
      ∃ p : Packet, WellFramed p ∧ buf = p.bytes ∧ p.b1 = 0x86 ∧ v = concentration p.payload := by
  constructor
  · intro h
    obtain ⟨e, -, hd⟩ | ⟨q, hq, ⟨-, hd⟩ | ⟨h1, hd⟩⟩ := parseGas_cases buf <;> rw [hd] at h <;> cases h
    obtain ⟨p, hp, hbuf, rfl⟩ := parsePayload_eq_ok.mp hq
    exact ⟨p, hp, hbuf, h1, rfl⟩
  · rintro ⟨p, hp, rfl, h1, rfl⟩
    exact parseGas_bytes_of_gasCode hp h1

/-- The transaction answers `Ok(v)` exactly when its parser does. -/
theorem exec_parseGasConcentrationPpm_eq_okPpm {buf : List Byte} {s : State} {v : Word32} :
    exec (.parseGasConcentrationPpm buf) s = .next { s with out := OutPorts.okPpm v } ↔
      parseGasConcentrationPpm buf = .ok v := by
  constructor
  · intro h
    cases hp : parseGasConcentrationPpm buf with
    | ok w => rw [exec_parseGasConcentrationPpm_of_ok hp] at h; cases h; rfl
    | error e => rw [exec_parseGasConcentrationPpm_of_error hp] at h; cases h
  · exact fun h => exec_parseGasConcentrationPpm_of_ok h s

/-- The concentration fits its 32 bits, so it is exact (30 R68, 20 R45). -/
theorem concentration_toNat (q : Bytes7) : (concentration q).toNat = 256 * q.s1.toNat + q.s2.toNat := by
  have h1 := q.s1.isLt
  have h2 := q.s2.isLt
  rw [concentration, BitVec.toNat_ofNat]
  omega

theorem extractLsb'_concentration_high (q : Bytes7) : (concentration q).extractLsb' 16 16 = 0 := by
  have hle := concentration_toNat_le q
  apply BitVec.eq_of_toNat_eq
  rw [BitVec.extractLsb'_toNat, Nat.shiftRight_eq_zero _ _ (by omega)]
  rfl

/-- The packet of a concentration response (30 R62, R72). -/
def responsePacket (h l x4 x5 x6 x7 : Byte) : Packet :=
  ⟨0xFF, 0x86, h, l, x4, x5, x6, x7, checksum ⟨0x86, h, l, x4, x5, x6, x7⟩⟩

theorem responsePacket_wellFramed (h l x4 x5 x6 x7 : Byte) : WellFramed (responsePacket h l x4 x5 x6 x7) := ⟨rfl, rfl⟩

/-- A well-framed packet that echoes 0x86 is a concentration response: only bytes 2 to 7 are free. -/
theorem eq_responsePacket {p : Packet} (hp : WellFramed p) (h1 : p.b1 = 0x86) :
    p = responsePacket p.b2 p.b3 p.b4 p.b5 p.b6 p.b7 := by
  obtain ⟨b0, b1, b2, b3, b4, b5, b6, b7, b8⟩ := p
  obtain ⟨h0, h8⟩ := hp
  obtain rfl : b0 = 0xFF := h0
  obtain rfl : b1 = 0x86 := h1
  obtain rfl : b8 = checksum ⟨0x86, b2, b3, b4, b5, b6, b7⟩ := h8
  rfl

/-! ### The statements about commands, responses and reserved bytes -/

/-- Settles O28: the partial inverse recovers every command from its code, which gives its domain and the injectivity
too; byte 2 of a request is its code field; and on a framed packet the decoder's last test is the one for 0x86. -/
theorem commandCodesAreThoseOfTheTable : Obligations.CommandCodesAreThoseOfTheTable := by
  refine ⟨⟨rfl, rfl, rfl, rfl, rfl⟩, fun c d h => Command.code_injective h, fun b c => Command.ofCode_eq_some,
    fun b => Command.ofCode_isSome, ?_, ?_⟩
  · intro dev value enabled s
    exact ⟨_, _, _, _, _, exec_of_requestFields rfl s, rfl, exec_of_requestFields rfl s, rfl,
      exec_of_requestFields rfl s, rfl, exec_of_requestFields rfl s, rfl, exec_of_requestFields rfl s, rfl⟩
  · intro p s hp
    rw [Command.ofCode_eq_some]
    by_cases h1 : p.b1 = 0x86
    · exact ⟨_, exec_parseGasConcentrationPpm_of_ok (parseGas_bytes_of_gasCode hp h1) s, iff_of_true rfl h1.symm⟩
    · exact ⟨_, exec_parseGasConcentrationPpm_of_error (parseGas_bytes_of_ne_gasCode hp h1) s,
        iff_of_false nofun (Ne.symm h1)⟩

/-- Settles O31: `build` leaves bytes 5, 6 and 7 zero; the decoder tests the framing alone, whatever stands there. -/
theorem reservedBytesAreZeroOutAndAnythingIn : Obligations.ReservedBytesAreZeroOutAndAnythingIn := by
  constructor
  · exact fun i f hf s => ⟨f.packet, exec_of_requestFields hf s, rfl, rfl, rfl⟩
  · intro b1 b2 b3 b4 x5 x6 x7 c s hc
    have hframed : WellFramed ⟨0xFF, b1, b2, b3, b4, x5, x6, x7, c⟩ := ⟨rfl, hc⟩
    exact exec_parsePayload_of_ok (parsePayload_bytes_of_wellFramed hframed) s

/-- Settles O36: the accepted buffers are the well-framed packets that echo 0x86, and those are the responses. -/
theorem acceptedResponsesAreExactlyTheirFormat : Obligations.AcceptedResponsesAreExactlyTheirFormat := by
  intro buf s v
  rw [exec_parseGasConcentrationPpm_eq_okPpm, parseGas_eq_ok]
  constructor
  · rintro ⟨p, hp, rfl, h1, rfl⟩
    exact ⟨p.b2, p.b3, p.b4, p.b5, p.b6, p.b7, congrArg Packet.bytes (eq_responsePacket hp h1), rfl⟩
  · rintro ⟨h, l, x4, x5, x6, x7, rfl, rfl⟩
    exact ⟨responsePacket h l x4 x5 x6 x7, responsePacket_wellFramed h l x4 x5 x6 x7, rfl, rfl, rfl⟩

/-- Settles O37: a response is accepted with its concentration, which two bytes keep below 2^16. -/
theorem concentrationIsBigEndianAndExact : Obligations.ConcentrationIsBigEndianAndExact := by
  intro h l x4 x5 x6 x7 s
  have hgas := parseGas_bytes_of_gasCode (responsePacket_wellFramed h l x4 x5 x6 x7) rfl
  exact ⟨_, exec_parseGasConcentrationPpm_of_ok hgas s, concentration_toNat _, concentration_toNat_le _,
    extractLsb'_concentration_high _⟩

/-- Settles O39: byte 2 of a packet is the code field of a request; the decoder looks at no byte of the payload but,
for the concentration, its first. -/
theorem unknownCommandCodesAreNeverSentAndPassThrough : Obligations.UnknownCommandCodesAreNeverSentAndPassThrough := by
  refine ⟨?_, ?_, ?_⟩
  · intro i s
    obtain ⟨r, hexec⟩ := exec_delivers i s
    refine ⟨_, hexec, fun p hp => ?_⟩
    obtain ⟨f, hf, rfl⟩ := exec_pkt_eq_some hexec hp
    exact Command.exists_code_eq.mp (requestFields_code hf)
  · exact fun p s hp => exec_parsePayload_of_ok (parsePayload_bytes_of_wellFramed hp) s
  · exact fun p s hp h1 => exec_parseGasConcentrationPpm_of_error (parseGas_bytes_of_ne_gasCode hp h1) s

end Machine
end Sys2Proof
end

section
/-! Proofs about checksum_unit (spec 40): the checksum in natural-number arithmetic, over the exact byte sum. -/

namespace Sys2Proof.Machine

/-! ### The exact byte sum and the checksum -/

theorem byteSum_append (as bs : List Byte) : byteSum (as ++ bs) = byteSum as + byteSum bs := by
  rw [byteSum, List.map_append, List.sum_append, byteSum, byteSum]

theorem byteSum_perm {as bs : List Byte} (h : as.Perm bs) : byteSum as = byteSum bs :=
  (h.map BitVec.toNat).sum_eq

/-- Adding bytes one by one modulo 256 gives the exact sum modulo 256. -/
theorem foldl_add_toNat (bs : List Byte) (a : Byte) :
    (bs.foldl (fun sum b => sum + b) a).toNat = (a.toNat + byteSum bs) % 256 := by
  induction bs generalizing a with
  | nil => exact (Nat.mod_eq_of_lt a.isLt).symm
  | cons b bs ih =>
    have hsum : byteSum (b :: bs) = b.toNat + byteSum bs := rfl
    rw [List.foldl_cons, ih, BitVec.toNat_add, hsum]
    omega

theorem wrappingSum_toNat (s : Bytes7) : (wrappingSum s).toNat = byteSum s.bytes % 256 := by
  rw [wrappingSum, foldl_add_toNat]
  exact congrArg (· % 256) (Nat.zero_add _)

theorem checksum_toNat (s : Bytes7) : (checksum s).toNat = (256 - byteSum s.bytes % 256) % 256 := by
  rw [checksum, one_add_complement, BitVec.toNat_neg, wrappingSum_toNat]

/-- The formula of 40 R100 in natural numbers: the inner sum is at most 255, so the subtraction does not wrap. -/
theorem checksum_toNat_formula (s : Bytes7) :
    (checksum s).toNat = (1 + (255 - byteSum s.bytes % 256)) % 256 := by
  have hone : 1 + (255 - byteSum s.bytes % 256) = 256 - byteSum s.bytes % 256 := by omega
  rw [checksum_toNat, hone]

/-- The checksum is the one byte that brings the byte sum to zero modulo 256 (40 R102). -/
theorem checksum_eq_iff (s : Bytes7) (c : Byte) : checksum s = c ↔ byteSum (s.bytes ++ [c]) % 256 = 0 := by
  have hc := c.isLt
  have hone : byteSum [c] = c.toNat := rfl
  rw [← BitVec.toNat_inj, checksum_toNat, byteSum_append, hone]
  omega

/-- Spans have the same checksum exactly when their byte sums agree modulo 256 (40 R104). -/
theorem checksum_eq_checksum_iff (x y : Bytes7) :
    checksum x = checksum y ↔ byteSum x.bytes % 256 = byteSum y.bytes % 256 := by
  rw [← BitVec.toNat_inj, checksum_toNat, checksum_toNat]
  omega

/-! ### The two transactions the checksum decides -/

/-- `checksum` puts the checksum of its span on `csum`, and changes nothing else. -/
theorem exec_checksum (span : Bytes7) (s : State) :
    exec (.checksum span) s = .next { s with out := OutPorts.onlyCsum (checksum span) } := rfl

/-- A packet that starts right and ends in another byte than its checksum fails the checksum test (42 R150). -/
theorem parsePayload_bytes_of_checksum_ne {p : Packet} (h0 : p.b0 = 0xFF) (hc : checksum p.payload ≠ p.b8) :
    parsePayload p.bytes = .error (.wrongChecksum (checksum p.payload) p.b8) := by
  simp [parsePayload, Packet.ofBytes_bytes, startByte, h0, hc]

/-- `parse_payload` of a packet that starts right reports no wrong checksum exactly when byte 8 is the checksum. -/
theorem exec_parsePayload_wrongChecksum_iff {p : Packet} (h0 : p.b0 = 0xFF) (s : State) :
    ∃ t, exec (.parsePayload p.bytes) s = .next t ∧
      ((∀ c f, t.out.err ≠ some (.wrongChecksum c f)) ↔ checksum p.payload = p.b8) := by
  by_cases hc : checksum p.payload = p.b8
  · exact ⟨_, exec_parsePayload_of_ok (parsePayload_bytes_of_wellFramed ⟨h0, hc.symm⟩) s,
      iff_of_true (fun _ _ => nofun) hc⟩
  · exact ⟨_, exec_parsePayload_of_error (parsePayload_bytes_of_checksum_ne h0 hc) s,
      iff_of_false (fun h => h _ _ (raise_out_err s _)) hc⟩

/-! ### The statements about the checksum -/

/-- Settles O18: `op = 000` has its row of the op-select map, and the operation delivers the checksum. -/
theorem checksumFollowsItsFormula : Obligations.ChecksumFollowsItsFormula :=
  ⟨opSelectMapAssignsAllEightCodes.1, fun _ _ _ _ _ _ _ s => ⟨_, exec_checksum _ s, checksum_toNat_formula _⟩⟩

/-- Settles O19: the operation delivers the checksum, which is the negated sum. -/
theorem checksumIsTheNegatedSum : Obligations.ChecksumIsTheNegatedSum :=
  fun span s => ⟨checksum span, exec_checksum span s, checksum_toNat span⟩

/-- Settles O20: the checksum is the one byte that brings the sum to zero, and the decoder compares byte 8 with it. -/
theorem spanAndChecksumSumToZero : Obligations.SpanAndChecksumSumToZero := by
  constructor
  · exact fun span s => ⟨_, exec_checksum span s, (checksum_eq_iff span _).mp rfl⟩
  · intro b1 b2 b3 b4 b5 b6 b7 b8 s
    obtain ⟨t, hexec, hiff⟩ :=
      exec_parsePayload_wrongChecksum_iff (p := ⟨0xFF, b1, b2, b3, b4, b5, b6, b7, b8⟩) rfl s
    exact ⟨t, hexec, hiff.trans (checksum_eq_iff _ _)⟩

/-- Settles O21: the checksum is a one-to-one function of the sum modulo 256, and reordering keeps the sum. -/
theorem checksumDependsOnlyOnTheSum : Obligations.ChecksumDependsOnlyOnTheSum := by
  refine ⟨fun x y => (checksum_eq_checksum_iff x y).symm, fun x y h => ?_, exec_checksum, rfl, rfl⟩
  rw [checksum_eq_checksum_iff, byteSum_perm h]

end Sys2Proof.Machine
end

section
/-! Proofs about packet_encoder (spec 41): the request packet byte by byte and as a wire pattern, its framing, and the
operation read back from it. -/

namespace Sys2Proof.Machine

/-! ### The request packet: bytes, wire pattern and framing (41 R120, R127) -/

/-- The nine bytes of a request, the last as the negated sum of the four fields. -/
theorem RequestFields.packet_eq (f : RequestFields) :
    f.packet = ⟨0xFF, f.dev, f.code, f.b3, f.b4, 0x00, 0x00, 0x00, -(f.dev + f.code + f.b3 + f.b4)⟩ :=
  congrArg (Packet.mk 0xFF f.dev f.code f.b3 f.b4 0x00 0x00 0x00) (checksum_request f.dev f.code f.b3 f.b4)

/-- With byte 4 zero, byte 8 is the negated sum of the other three fields. -/
theorem RequestFields.packet_of_b4_zero (dev code b3 : Byte) :
    RequestFields.packet ⟨dev, code, b3, 0x00⟩ =
      ⟨0xFF, dev, code, b3, 0x00, 0x00, 0x00, 0x00, -(dev + code + b3)⟩ := by
  simp only [packet_eq, BitVec.add_zero, BitVec.ofNat_eq_ofNat]

/-- With bytes 3 and 4 zero, byte 8 is the negated sum of device number and command code. -/
theorem RequestFields.packet_of_b3_b4_zero (dev code : Byte) :
    RequestFields.packet ⟨dev, code, 0x00, 0x00⟩ =
      ⟨0xFF, dev, code, 0x00, 0x00, 0x00, 0x00, 0x00, -(dev + code)⟩ := by
  simp only [packet_eq, BitVec.add_zero, BitVec.ofNat_eq_ofNat]

/-- Byte 8 of a request is the checksum of bytes 1 to 7. -/
theorem RequestFields.packet_b8 (f : RequestFields) :
    f.packet.b8 = checksum ⟨f.dev, f.code, f.b3, f.b4, 0x00, 0x00, 0x00⟩ := rfl

/-- The wire pattern of a request: the start byte, the four fields, three zero bytes and the checksum (30 R60, R61). -/
theorem RequestFields.packet_bits (f : RequestFields) :
    f.packet.bits = 0xFF#8 ++ f.dev ++ f.code ++ f.b3 ++ f.b4 ++ 0#8 ++ 0#8 ++ 0#8 ++ f.packet.b8 := rfl

theorem RequestFields.packet_wellFramed (f : RequestFields) : WellFramed f.packet :=
  build_wellFramed f.code f.dev f.b3 f.b4

/-- The flag byte is `enabled:0:enabled:0:0:0:0:0` (30 R67). -/
theorem flagByte_eq_bits (enabled : Bool) :
    (if enabled then 0xA0 else 0x00 : Byte) = BitVec.ofBool enabled ++ 0#1 ++ BitVec.ofBool enabled ++ 0#5 := by
  cases enabled <;> rfl

/-- The request to device 0x86 also passes as a concentration response, since it carries 0x86 at index 1. -/
theorem parseGas_request_device86 :
    parseGasConcentrationPpm [0xFF, 0x86, 0x86, 0, 0, 0, 0, 0, 0xF4] = .ok 34304 :=
  parseGas_bytes_of_gasCode (RequestFields.packet_wellFramed ⟨0x86, 0x86, 0x00, 0x00⟩) rfl

/-! ### The operation read back from its request fields (41 R129) -/

/-- The two bytes of a 16-bit parameter, put together again, are the parameter. -/
theorem extractLsb'_high_append_low (value : Half) : value.extractLsb' 8 8 ++ value.extractLsb' 0 8 = value :=
  (BitVec.extractLsb'_append_extractLsb'_eq_extractLsb' rfl).trans BitVec.extractLsb'_eq_self

/-- The operation whose request has the given fields: the command is told by its code, the operands by the other bytes. -/
def RequestFields.operation (f : RequestFields) : Option Instr :=
  match Command.ofCode f.code with
  | some .readGasConcentration           => some (.readGasConcentration f.dev)
  | some .calibrateZero                  => some (.calibrateZeroPoint f.dev)
  | some .calibrateSpan                  => some (.calibrateSpanPoint f.dev (f.b3 ++ f.b4))
  | some .setAutomaticBaselineCorrection => some (.setAutomaticBaselineCorrection f.dev (f.b3 == 0xA0))
  | some .setSensorDetectionRange        => some (.setDetectionRange f.dev (f.b3 ++ f.b4))
  | none                                 => none

theorem RequestFields.operation_of_requestFields {i : Instr} {f : RequestFields} (h : requestFields i = some f) :
    f.operation = some i := by
  cases i with
  | checksum span => cases h
  | readGasConcentration dev => cases h; rfl
  | calibrateZeroPoint dev => cases h; rfl
  | calibrateSpanPoint dev value =>
    cases h
    exact congrArg (fun v => some (Instr.calibrateSpanPoint dev v)) (extractLsb'_high_append_low value)
  | setAutomaticBaselineCorrection dev enabled => cases h; cases enabled <;> rfl
  | setDetectionRange dev value =>
    cases h
    exact congrArg (fun v => some (Instr.setDetectionRange dev v)) (extractLsb'_high_append_low value)
  | parsePayload buf => cases h
  | parseGasConcentrationPpm buf => cases h

/-- Operations with the same request fields are the same: the fields tell the operation. -/
theorem eq_of_requestFields {i j : Instr} {f : RequestFields} (hi : requestFields i = some f)
    (hj : requestFields j = some f) : i = j :=
  Option.some.inj ((RequestFields.operation_of_requestFields hi).symm.trans (RequestFields.operation_of_requestFields hj))

/-- A packet shows its request fields in bytes 1 to 4. -/
theorem RequestFields.packet_injective : Function.Injective RequestFields.packet :=
  Function.LeftInverse.injective (g := fun p : Packet => ⟨p.b1, p.b2, p.b3, p.b4⟩) fun _ => rfl

/-! ### The statements about packet_encoder -/

/-- Settles O22: the operation has its row of the op-select map and builds the packet of its fields; for device 0x86 that
packet is a response too. -/
theorem readGasConcentrationBuildsItsPacket : Obligations.ReadGasConcentrationBuildsItsPacket := by
  obtain ⟨-, select, -⟩ := opSelectMapAssignsAllEightCodes
  refine ⟨select, fun dev s => ?_, exec_parseGasConcentrationPpm_of_ok parseGas_request_device86⟩
  exact ⟨_, exec_of_requestFields rfl s, RequestFields.packet_of_b3_b4_zero dev 0x86,
    RequestFields.packet_b8 _, RequestFields.packet_bits _⟩

/-- Settles O23: the row of the op-select map, and the packet of the fields `dev` and 0x87. -/
theorem calibrateZeroPointBuildsItsPacket : Obligations.CalibrateZeroPointBuildsItsPacket := by
  obtain ⟨-, -, select, -⟩ := opSelectMapAssignsAllEightCodes
  refine ⟨select, fun dev s => ?_⟩
  exact ⟨_, exec_of_requestFields rfl s, RequestFields.packet_of_b3_b4_zero dev 0x87,
    RequestFields.packet_b8 _, RequestFields.packet_bits _⟩

/-- Settles O24: the row of the op-select map, and the packet with `value[15:8]` and `value[7:0]` in its fields. -/
theorem calibrateSpanPointBuildsItsPacket : Obligations.CalibrateSpanPointBuildsItsPacket := by
  obtain ⟨-, -, -, select, -⟩ := opSelectMapAssignsAllEightCodes
  refine ⟨select, fun dev value s => ?_⟩
  have hexec := exec_of_requestFields (i := .calibrateSpanPoint dev value) rfl s
  exact ⟨_, _, _, hexec, rfl, rfl, RequestFields.packet_eq _,
    RequestFields.packet_b8 _, RequestFields.packet_bits _⟩

/-- Settles O25: the row of the op-select map, and the packet with the flag byte, which the wire pattern shows by its
bits. -/
theorem setAutomaticBaselineCorrectionBuildsItsPacket : Obligations.SetAutomaticBaselineCorrectionBuildsItsPacket := by
  obtain ⟨-, -, -, -, select, -⟩ := opSelectMapAssignsAllEightCodes
  refine ⟨select, fun dev enabled s => ?_⟩
  exact ⟨_, _, _, exec_of_requestFields rfl s, rfl, flagByte_eq_bits enabled,
    RequestFields.packet_of_b4_zero dev 0x79 _,
    RequestFields.packet_b8 _, RequestFields.packet_bits _⟩

/-- Settles O26: the row of the op-select map, and the packet with `value[15:8]` and `value[7:0]` in its fields. -/
theorem setDetectionRangeBuildsItsPacket : Obligations.SetDetectionRangeBuildsItsPacket := by
  obtain ⟨-, -, -, -, -, select, -⟩ := opSelectMapAssignsAllEightCodes
  refine ⟨select, fun dev value s => ?_⟩
  have hexec := exec_of_requestFields (i := .setDetectionRange dev value) rfl s
  exact ⟨_, _, _, hexec, rfl, rfl, RequestFields.packet_eq _,
    RequestFields.packet_b8 _, RequestFields.packet_bits _⟩

/-- Settles O29: the packet of any request fields is well framed, and `parse_payload` accepts every well-framed packet. -/
theorem everyRequestIsWellFramed : Obligations.EveryRequestIsWellFramed := by
  intro i f hf s u
  have hparse := parsePayload_bytes_of_wellFramed f.packet_wellFramed
  exact ⟨f.packet, _, exec_of_requestFields hf s, rfl, rfl, rfl, exec_parsePayload_of_ok hparse u, rfl⟩

/-- Settles O30: a produced packet is that of some request fields, it shows those fields, and they tell the operation. -/
theorem encoderIsInjective : Obligations.EncoderIsInjective := by
  intro i j s u t v p hi hj hpi hpj
  obtain ⟨f, hf, rfl⟩ := exec_pkt_eq_some hi hpi
  obtain ⟨g, hg, hfg⟩ := exec_pkt_eq_some hj hpj
  obtain rfl := RequestFields.packet_injective hfg
  exact eq_of_requestFields hf hg

end Sys2Proof.Machine
end

section
/-! Proofs about packet_decoder (spec 42): each way a decoder transaction ends, the buffers it accepts, and what it makes
of the requests. -/

namespace Sys2Proof.Machine

/-! ### The buffers `parse_payload` accepts (42 R150, R151) -/

/-- A packet with another first byte than 0xFF fails the start byte test, whatever follows. -/
theorem parsePayload_bytes_of_startByte_ne {p : Packet} (h0 : p.b0 ≠ 0xFF) :
    parsePayload p.bytes = .error (.wrongStartByte p.b0) := by
  simp only [parsePayload, Packet.ofBytes_bytes]
  exact if_pos h0

/-- The framing of a packet in natural numbers: bytes 1 to 8 sum to zero modulo 256 (42 R151). -/
theorem wellFramed_iff_byteSum (p : Packet) :
    WellFramed p ↔ p.b0 = 0xFF ∧ byteSum (p.bytes.drop 1) % 256 = 0 := by
  have hsum : checksum p.payload = p.b8 ↔ byteSum (p.bytes.drop 1) % 256 = 0 := checksum_eq_iff p.payload p.b8
  rw [WellFramed, eq_comm (a := p.b8), hsum]

/-- The buffers of well-framed packets, by length, first byte and sum (42 R151). -/
theorem exists_wellFramed_bytes_iff {buf : List Byte} :
    (∃ p : Packet, WellFramed p ∧ buf = p.bytes) ↔
      buf.length = 9 ∧ buf[0]? = some 0xFF ∧ byteSum (buf.drop 1) % 256 = 0 := by
  constructor
  · rintro ⟨p, hp, rfl⟩
    obtain ⟨h0, hsum⟩ := (wellFramed_iff_byteSum p).mp hp
    exact ⟨rfl, congrArg some h0, hsum⟩
  · rintro ⟨hlen, h0, hsum⟩
    cases hp : Packet.ofBytes buf with
    | none => exact absurd hlen (Packet.ofBytes_eq_none.mp hp)
    | some p =>
      obtain rfl := Packet.ofBytes_eq_some.mp hp
      exact ⟨p, (wellFramed_iff_byteSum p).mpr ⟨Option.some.inj h0, hsum⟩, rfl⟩

/-! ### What the outputs of `parse_payload` tell (42 R153) -/

theorem parsePayload_error_of_exec {buf : List Byte} {s t : State} {e : DecodeError}
    (hexec : exec (.parsePayload buf) s = .next t) (herr : t.out.err = some e) : parsePayload buf = .error e := by
  cases hp : parsePayload buf with
  | ok p => rw [exec_parsePayload_of_ok hp] at hexec; cases hexec; cases herr
  | error e' => rw [exec_parsePayload_of_error hp] at hexec; cases hexec; cases herr; rfl

theorem parsePayload_ok_of_exec {buf : List Byte} {s t : State} {p : Bytes7}
    (hexec : exec (.parsePayload buf) s = .next t) (hpayload : t.out.payload = some p) : parsePayload buf = .ok p := by
  cases hp : parsePayload buf with
  | ok p' => rw [exec_parsePayload_of_ok hp] at hexec; cases hexec; cases hpayload; rfl
  | error e => rw [exec_parsePayload_of_error hp] at hexec; cases hexec; cases hpayload

/-- The echoed command is tested by `parse_gas_concentration_ppm` alone. -/
theorem parsePayload_ne_wrongPacketType (buf : List Byte) (x y : Byte) :
    parsePayload buf ≠ .error (.wrongPacketType x y) := by
  obtain ⟨-, hd⟩ | ⟨p, -, ⟨-, hd⟩ | ⟨-, -, hd⟩ | ⟨-, -, hd⟩⟩ := parsePayload_cases buf <;> rw [hd] <;> nofun

/-! ### The statements about packet_decoder -/

/-- Settles O32: `op = 110` has its row of the op-select map, and each clause is one way the parser ends. -/
theorem parsePayloadFollowsItsSteps : Obligations.ParsePayloadFollowsItsSteps := by
  obtain ⟨-, -, -, -, -, -, select, -⟩ := opSelectMapAssignsAllEightCodes
  refine ⟨select, ?_, ?_, ?_, ?_⟩
  · exact fun buf s hlen => exec_parsePayload_of_error (parsePayload_of_length_ne hlen) s
  · intro b0 b1 b2 b3 b4 b5 b6 b7 b8 s h0
    exact exec_parsePayload_of_error
      (parsePayload_bytes_of_startByte_ne (p := ⟨b0, b1, b2, b3, b4, b5, b6, b7, b8⟩) h0) s
  · rintro b1 b2 b3 b4 b5 b6 b7 b8 c s rfl hc
    exact exec_parsePayload_of_error
      (parsePayload_bytes_of_checksum_ne (p := ⟨0xFF, b1, b2, b3, b4, b5, b6, b7, b8⟩) rfl hc) s
  · intro b1 b2 b3 b4 b5 b6 b7 b8 s hc
    have hframed : WellFramed ⟨0xFF, b1, b2, b3, b4, b5, b6, b7, b8⟩ := ⟨rfl, hc.symm⟩
    exact exec_parsePayload_of_ok (parsePayload_bytes_of_wellFramed hframed) s

/-- Settles O33: the accepted buffers are those of the well-framed packets, which length, first byte and sum tell; the
payload is the packet's own. -/
theorem parsePayloadSucceedsExactlyOnFramedBuffers : Obligations.ParsePayloadSucceedsExactlyOnFramedBuffers := by
  intro buf s
  rw [← exists_wellFramed_bytes_iff]
  cases hp : parsePayload buf with
  | ok q =>
    obtain ⟨p, hframed, rfl, rfl⟩ := parsePayload_eq_ok.mp hp
    exact ⟨_, exec_parsePayload_of_ok hp s, iff_of_true rfl ⟨p, hframed, rfl⟩, fun _ => rfl⟩
  | error e =>
    refine ⟨_, exec_parsePayload_of_error hp s, iff_of_false nofun ?_, nofun⟩
    rintro ⟨p, hframed, rfl⟩
    cases hp.symm.trans (parsePayload_bytes_of_wellFramed hframed)

/-- Settles O34: the outputs of `parse_payload` tell what its parser found, on which `parse_gas_concentration_ppm`
goes on. -/
theorem parseGasConcentrationFollowsItsSteps : Obligations.ParseGasConcentrationFollowsItsSteps := by
  obtain ⟨-, -, -, -, -, -, -, select, -⟩ := opSelectMapAssignsAllEightCodes
  refine ⟨select, ?_, ?_, ?_⟩
  · intro buf s e hexec
    exact exec_parseGasConcentrationPpm_of_error (parseGas_of_error (parsePayload_error_of_exec hexec rfl)) s
  · intro buf s p hexec h0
    have hgas := parseGas_of_ok (parsePayload_ok_of_exec hexec rfl)
    exact exec_parseGasConcentrationPpm_of_error (hgas.trans (if_pos h0)) s
  · intro buf s p hexec h0
    have hgas := parseGas_of_ok (parsePayload_ok_of_exec hexec rfl)
    exact ⟨concentration p, concentration_toNat p,
      exec_parseGasConcentrationPpm_of_ok (hgas.trans (if_neg (not_not_intro h0))) s⟩

/-- Settles O35: both operations raise the parser's error, which is never the one about the echoed command. -/
theorem errorsOfParsePayloadArePropagatedUnchanged : Obligations.ErrorsOfParsePayloadArePropagatedUnchanged := by
  intro buf s t e hexec herr
  have hparse := parsePayload_error_of_exec hexec herr
  constructor
  · calc exec (.parseGasConcentrationPpm buf) s
      _ = .next (s.raise e) := exec_parseGasConcentrationPpm_of_error (parseGas_of_error hparse) s
      _ = exec (.parsePayload buf) s := (exec_parsePayload_of_error hparse s).symm
      _ = .next t := hexec
  · rintro x y rfl
    exact parsePayload_ne_wrongPacketType buf x y hparse

/-- Settles O40: a request is well framed, so `parse_payload` gives its bytes 1 to 7, the four fields and three zeros. -/
theorem requestsRoundTripThroughParsePayload : Obligations.RequestsRoundTripThroughParsePayload := by
  intro i f hf s u
  have hparse := parsePayload_bytes_of_wellFramed f.packet_wellFramed
  exact ⟨f.packet, exec_of_requestFields hf s, exec_parsePayload_of_ok hparse u, rfl, rfl⟩

/-- Settles O41: a request is well framed with `dev` as its byte 1, which is where the decoder looks for the echoed
command 0x86. -/
theorem requestsDecodeAsResponsesExactlyForDevice86 : Obligations.RequestsDecodeAsResponsesExactlyForDevice86 := by
  constructor
  · intro i f hf s u
    refine ⟨f.packet, exec_of_requestFields hf s, fun hdev => ?_, fun hdev => ?_⟩
    · exact exec_parseGasConcentrationPpm_of_error (parseGas_bytes_of_ne_gasCode f.packet_wellFramed hdev) u
    · exact ⟨_, concentration_toNat f.packet.payload,
        exec_parseGasConcentrationPpm_of_ok (parseGas_bytes_of_gasCode f.packet_wellFramed hdev) u⟩
  · intro s
    have hexec := exec_of_requestFields (i := .readGasConcentration 0x86) rfl s
    exact ⟨_, hexec, exec_parseGasConcentrationPpm_of_ok parseGas_request_device86 s⟩

end Sys2Proof.Machine
end

section
/-! Proofs about exceptions (spec 60): each error of the decoder under its own condition, the error on the `err` port and
its numeric view, and how a step can stop. -/

namespace Sys2Proof.Machine

/-! ### The errors of `parse_payload` (60 R201 to R203) -/

theorem parsePayload_eq_wrongPacketLength {buf : List Byte} {n : Nat} :
    parsePayload buf = .error (.wrongPacketLength n) ↔ buf.length ≠ 9 ∧ n = buf.length := by
  constructor
  · intro h
    obtain ⟨hlen, hd⟩ | ⟨p, -, ⟨-, hd⟩ | ⟨-, -, hd⟩ | ⟨-, -, hd⟩⟩ := parsePayload_cases buf <;>
      rw [hd] at h <;> cases h
    exact ⟨hlen, rfl⟩
  · rintro ⟨hlen, rfl⟩
    exact parsePayload_of_length_ne hlen

theorem parsePayload_eq_wrongStartByte {buf : List Byte} {b : Byte} :
    parsePayload buf = .error (.wrongStartByte b) ↔ buf.length = 9 ∧ buf[0]? = some b ∧ b ≠ 0xFF := by
  constructor
  · intro h
    obtain ⟨-, hd⟩ | ⟨p, rfl, ⟨h0, hd⟩ | ⟨-, -, hd⟩ | ⟨-, -, hd⟩⟩ := parsePayload_cases buf <;>
      rw [hd] at h <;> cases h
    exact ⟨rfl, rfl, h0⟩
  · rintro ⟨hlen, hb, h0⟩
    obtain ⟨hne, -⟩ | ⟨p, rfl, -⟩ := parsePayload_cases buf
    · exact absurd hlen hne
    · obtain rfl : p.b0 = b := Option.some.inj hb
      exact parsePayload_bytes_of_startByte_ne h0

theorem parsePayload_eq_wrongChecksum {buf : List Byte} {c f : Byte} :
    parsePayload buf = .error (.wrongChecksum c f) ↔
      ∃ p : Packet, buf = p.bytes ∧ p.b0 = 0xFF ∧ c = checksum p.payload ∧ f = p.b8 ∧ c ≠ f := by
  constructor
  · intro h
    obtain ⟨-, hd⟩ | ⟨p, hbuf, ⟨-, hd⟩ | ⟨h0, hc, hd⟩ | ⟨-, -, hd⟩⟩ := parsePayload_cases buf <;>
      rw [hd] at h <;> cases h
    exact ⟨p, hbuf, h0, rfl, rfl, hc⟩
  · rintro ⟨p, rfl, h0, rfl, rfl, hc⟩
    exact parsePayload_bytes_of_checksum_ne h0 hc

/-! ### The errors of `parse_gas_concentration_ppm` (60 R204, R207) -/

/-- Before its own test, `parse_gas_concentration_ppm` fails as `parse_payload` does. -/
theorem parseGas_eq_error_of_ne_wrongPacketType {buf : List Byte} {e : DecodeError}
    (he : ∀ x y, e ≠ .wrongPacketType x y) :
    parseGasConcentrationPpm buf = .error e ↔ parsePayload buf = .error e := by
  constructor
  · intro h
    obtain ⟨e', hp, hd⟩ | ⟨p, -, ⟨-, hd⟩ | ⟨-, hd⟩⟩ := parseGas_cases buf <;> rw [hd] at h <;> cases h
    · exact hp
    · exact absurd rfl (he _ _)
  · exact parseGas_of_error

theorem parseGas_eq_wrongPacketType {buf : List Byte} {e f : Byte} :
    parseGasConcentrationPpm buf = .error (.wrongPacketType e f) ↔
      ∃ p : Packet, buf = p.bytes ∧ p.b0 = 0xFF ∧ p.b8 = checksum p.payload ∧ e = 0x86 ∧ f = p.b1 ∧ f ≠ 0x86 := by
  constructor
  · intro h
    obtain ⟨e', hp, hd⟩ | ⟨q, hq, ⟨h1, hd⟩ | ⟨-, hd⟩⟩ := parseGas_cases buf <;> rw [hd] at h <;> cases h
    · exact absurd hp (parsePayload_ne_wrongPacketType buf e f)
    · obtain ⟨p, ⟨h0, hc⟩, hbuf, rfl⟩ := parsePayload_eq_ok.mp hq
      exact ⟨p, hbuf, h0, hc, rfl, rfl, h1⟩
  · rintro ⟨p, rfl, h0, hc, rfl, rfl, h1⟩
    exact parseGas_bytes_of_ne_gasCode ⟨h0, hc⟩ h1

/-! ### The error on the `err` port (60 R206) -/

/-- A decoder transaction puts on `err` exactly the error its parser found: a value leaves that port without one. -/
theorem answer_err {α : Type} {ok : α → Result} (hok : ∀ v, (ok v).ports.err = none) (r : Except DecodeError α)
    (s : State) : ∃ t, answer ok r s = .next t ∧ ∀ e, t.out.err = some e ↔ r = .error e := by
  cases r with
  | ok v => exact ⟨s.deliver (ok v), rfl, fun e => by simp [hok]⟩
  | error e' => exact ⟨s.raise e', rfl, fun e => by rw [raise_out_err, Option.some_inj, Except.error.injEq]⟩

theorem exec_parsePayload_err (buf : List Byte) (s : State) :
    ∃ t, exec (.parsePayload buf) s = .next t ∧ ∀ e, t.out.err = some e ↔ parsePayload buf = .error e :=
  answer_err (fun _ => rfl) (parsePayload buf) s

theorem exec_parseGasConcentrationPpm_err (buf : List Byte) (s : State) :
    ∃ t, exec (.parseGasConcentrationPpm buf) s = .next t ∧
      ∀ e, t.out.err = some e ↔ parseGasConcentrationPpm buf = .error e :=
  answer_err (fun _ => rfl) (parseGasConcentrationPpm buf) s

/-! ### The numeric view of the `err` port (60 R205) -/

theorem readErrKind_of_err {s : State} {e : DecodeError} (h : s.out.err = some e) : s.readErrKind = .ok e.kind := by
  rw [State.readErrKind, h]; rfl

theorem readErrF1_of_err {s : State} {e : DecodeError} (h : s.out.err = some e) : s.readErrF1 = .ok e.f1 := by
  rw [State.readErrF1, h]; rfl

theorem readErrF2_of_err {s : State} {e : DecodeError} (h : s.out.err = some e) :
    s.readErrF2 = readPort .errF2 e.f2 := by
  rw [State.readErrF2, h]; rfl

/-- Every error has a kind and a first field. -/
theorem raise_readErrKind_readErrF1 (s : State) (e : DecodeError) :
    ∃ k f, (s.raise e).readErrKind = .ok k ∧ (s.raise e).readErrF1 = .ok f :=
  ⟨e.kind, e.f1, readErrKind_of_err (raise_out_err s e), readErrF1_of_err (raise_out_err s e)⟩

theorem noErrorField_of_err_eq_none {s : State} (h : s.out.err = none) : NoErrorField s := by
  simp [NoErrorField, State.readErrKind, State.readErrF1, State.readErrF2, readPort, h]

/-! ### How a step can stop (60 R208) -/

/-- A step ends in one of two ways, told apart by the decoder: a next state, or the refusal of the ports. -/
theorem step_ends (s : State) :
    ((∃ i, decode s.inp = .ok i) ∧ ∃ t, step s = .next t) ∨
    ∃ why, decode s.inp = .error why ∧ step s = .refused (.noTransaction why) := by
  cases hd : decode s.inp with
  | ok i =>
    obtain ⟨r, hexec⟩ := exec_delivers i s
    exact .inl ⟨⟨i, rfl⟩, s.deliver r, (step_of_decode hd).trans hexec⟩
  | error why => exact .inr ⟨why, rfl, step_of_decode_error hd⟩

/-! ### The statements about errors and stops -/

/-- Settles O6: a step stops only where the decoder rejects the ports, which it does exactly when they are not well
formed, and then it is a refusal. -/
theorem stepStopsOnlyWithoutATransaction : Obligations.StepStopsOnlyWithoutATransaction := by
  constructor
  · intro s
    rw [← decode_ok_iff_wellFormed]
    obtain ⟨hd, hstep⟩ | ⟨why, hd, hstep⟩ := step_ends s
    · exact iff_of_true hstep hd
    · simp [hd, hstep]
  · intro s f h
    obtain ⟨-, t, hstep⟩ | ⟨why, -, hstep⟩ := step_ends s <;> rw [hstep] at h <;> cases h

/-- Settles O38: on `err` stands the parser's error; the parsers of both operations agree on every error but
`WrongPacketType`, and each error has its own condition. -/
theorem errorsAreReportedInTheirOrder : Obligations.ErrorsAreReportedInTheirOrder := by
  intro buf s
  obtain ⟨t, ht, hterr⟩ := exec_parsePayload_err buf s
  obtain ⟨u, hu, huerr⟩ := exec_parseGasConcentrationPpm_err buf s
  have framing : ∀ x ∈ [t, u], ∀ e : DecodeError, (∀ y z, e ≠ .wrongPacketType y z) →
      (x.out.err = some e ↔ parsePayload buf = .error e) := by
    intro x hx e he
    obtain rfl | rfl : x = t ∨ x = u := by simpa using hx
    · exact hterr e
    · exact (huerr e).trans (parseGas_eq_error_of_ne_wrongPacketType he)
  refine ⟨t, u, ht, hu, fun x hx => ⟨fun n => ?_, fun b => ?_, fun c f => ?_⟩, fun e f => ?_, fun e f => ?_⟩
  · exact (framing x hx (.wrongPacketLength n) nofun).trans parsePayload_eq_wrongPacketLength
  · exact (framing x hx (.wrongStartByte b) nofun).trans parsePayload_eq_wrongStartByte
  · exact (framing x hx (.wrongChecksum c f) nofun).trans parsePayload_eq_wrongChecksum
  · exact (huerr _).trans parseGas_eq_wrongPacketType
  · exact fun h => parsePayload_ne_wrongPacketType buf e f ((hterr _).mp h)

/-- Settles O42: the three fields of the error on `err`, read off the table of its kind. -/
theorem errorFieldsHaveTheirNumericEncoding : Obligations.ErrorFieldsHaveTheirNumericEncoding := by
  intro s
  refine ⟨fun n h => ?_, fun b h => ?_, fun c f h => ?_, fun e f h => ?_⟩ <;>
    exact ⟨readErrKind_of_err h, readErrF1_of_err h, readErrF2_of_err h⟩

/-- Settles O45: the delivered result replaces `err`, so it holds an error exactly when that result is one. -/
theorem errorFieldsFaultWithoutAnError : Obligations.ErrorFieldsFaultWithoutAnError := by
  intro i s
  obtain ⟨r, hlisted, -, hexec⟩ := exec_result i
  refine ⟨_, hexec s, ?_⟩
  cases i with
  | parsePayload buf =>
    obtain ⟨p, rfl⟩ | ⟨e, rfl⟩ := hlisted
    · exact .inl ⟨rfl, noErrorField_of_err_eq_none rfl⟩
    · exact .inr ⟨rfl, raise_readErrKind_readErrF1 s e⟩
  | parseGasConcentrationPpm buf =>
    obtain ⟨v, rfl⟩ | ⟨e, rfl⟩ := hlisted
    · exact .inl ⟨rfl, noErrorField_of_err_eq_none rfl⟩
    · exact .inr ⟨rfl, raise_readErrKind_readErrF1 s e⟩
  | _ => obtain ⟨x, rfl⟩ := hlisted; exact noErrorField_of_err_eq_none rfl

end Sys2Proof.Machine
end

section
/-! Proofs about reset (spec 70 section 1): no port holds a value then, and no transaction depends on being the first. -/

namespace Sys2Proof.Machine

/-- A port that holds no value gives a fault that names it (10 R29). -/
theorem readPort_none {α : Type} (port : OutPort) :
    readPort port (none : Option α) = .error (.unproducedOutput port) := rfl

/-- Settles O13: output ports without a value are legal. -/
theorem resetOutputsAreLegal : Obligations.ResetOutputsAreLegal := OutPorts.Legal.noValue

/-- Settles O15: the earlier transactions complete, and the operation has one result (`transact_result`), which it
delivers after them and after reset alike. -/
theorem firstTransactionBehavesLikeAnyOther : Obligations.FirstTransactionBehavesLikeAnyOther := by
  intro earlier i
  obtain ⟨r, hr⟩ := transact_result i
  obtain ⟨s, hs, -⟩ := everyStepLeavesLegalOutputs.2 earlier State.reset resetOutputsAreLegal
  refine ⟨s, _, _, hs, hr s, hr State.reset, ?_⟩
  rw [deliver_out, deliver_out]

/-- Settles O11: no output port holds a value, and the decoder finds no operation on the input ports. -/
theorem resetLeavesEveryOutputWithoutValue : Obligations.ResetLeavesEveryOutputWithoutValue :=
  ⟨readPort_none .pkt, readPort_none .csum, readPort_none .status, readPort_none .payload, readPort_none .ppm,
    readPort_none .err, step_of_decode_error (decode_of_op_none rfl)⟩

end Sys2Proof.Machine
end
